-- ==== Sys2Proof/Word.lean ====
section
/-! DEFINITION. The word types of the block. Every host register is 32 bits (`00_scope.md` R8 `REG_WIDTH`);
a RawSample is five bytes (R8 `FRAME_BYTES`); the settle time is 16 bits (`10_state.md` R52). -/

namespace Sys2Proof

/-- A 32-bit register value, command word, clock value or binary32 pattern. -/
abbrev Word := BitVec 32

/-- One byte of a RawSample, or CONFIG.TYPE. -/
abbrev Byte := BitVec 8

/-- A 16-bit count of microseconds: the settle time (`10_state.md` R52). -/
abbrev Half := BitVec 16

end Sys2Proof
end

