-- ==== Sys2Proof/Config.lean ====
section
/-! DEFINITION. The parameters of `00_scope.md` R8: the fixed and decided ones are constants with their value;
the OPEN ones are a record `Params`, an argument of the model, whose value for a block that no claim has
instantiated is made of constants with no body. The free values of the two oracles stand here too. -/

namespace Sys2Proof.Config

/-- R8 `FRAME_BITS`: data bits per frame (fixed). -/
def frameBits : Nat := 40

/-- The pulses of a frame: two of acknowledgement and two for each data bit (`30_encoding.md` R100). -/
def framePulses : Nat := 82

/-- R8 `RATE_LIMIT_MS`: least interval between wire cycles without `force`, in milliseconds (fixed). -/
def rateLimitMs : Nat := 2000

/-- R8 `CHECKSUM_MOD`: "truncated to 8 bits" (fixed). -/
def checksumMod : Nat := 256

/-- `NAN32` (`00_scope.md` R14): the sentinel result. -/
def nan32 : Word := 0x7FC00000#32

end Sys2Proof.Config

namespace Sys2Proof

/-- The OPEN parameters of `00_scope.md` R8, fixed for one block (`10_state.md` R58). `BAD_ACCESS` is not here:
the model gives such an access no step (`20_memory.md` R81). -/
structure Params where
  /-- `BASE`: base address of the host window. -/
  base : Nat
  /-- `T_WAKE_US`. -/
  tWakeUs : BitVec 32
  /-- `T_IDLE_US`. -/
  tIdleUs : BitVec 32
  /-- `SETTLE_DEFAULT_US`. -/
  settleDefaultUs : Half
  /-- `T_REF_US`, at least 1 (`Params.wf`). -/
  tRefUs : BitVec 32
  /-- `BUDGET_MARGIN_US`. -/
  budgetMarginUs : BitVec 32
  /-- `T_BIT_THR_US`. -/
  tBitThrUs : BitVec 32
  /-- `BUDGET_DEFAULT`, in iterations. -/
  budgetDefault : Word
  /-- `THR_DEFAULT`, in iterations. -/
  thrDefault : Word
  /-- `GUARD_EN`. -/
  guardEn : Bool
  deriving DecidableEq, Repr

/-- R8 gives one parameter a bound: `T_REF_US` is at least 1. -/
def Params.wf (p : Params) : Bool := decide (1 ≤ p.tRefUs.toNat)

namespace Config

/-- `BASE`, left open. -/
opaque base : Nat
/-- `T_WAKE_US`, left open. -/
opaque tWakeUs : BitVec 32
/-- `T_IDLE_US`, left open. -/
opaque tIdleUs : BitVec 32
/-- `SETTLE_DEFAULT_US`, left open. -/
opaque settleDefaultUs : Half
/-- `T_REF_US`, left open; `openParams` takes 1 where this is 0 (R8: at least 1; log 2). -/
opaque tRefUs : BitVec 32
/-- `BUDGET_MARGIN_US`, left open. -/
opaque budgetMarginUs : BitVec 32
/-- `T_BIT_THR_US`, left open. -/
opaque tBitThrUs : BitVec 32
/-- `BUDGET_DEFAULT`, left open. -/
opaque budgetDefault : Word
/-- `THR_DEFAULT`, left open. -/
opaque thrDefault : Word
/-- `GUARD_EN`, left open. -/
opaque guardEn : Bool

/-- The parameters of a block whose instance no claim names: every one of them open (log 1, log 2). -/
def openParams : Params where
  base := base
  tWakeUs := tWakeUs
  tIdleUs := tIdleUs
  settleDefaultUs := settleDefaultUs
  tRefUs := if tRefUs = 0#32 then 1#32 else tRefUs
  budgetMarginUs := budgetMarginUs
  tBitThrUs := tBitThrUs
  budgetDefault := budgetDefault
  thrDefault := thrDefault
  guardEn := guardEn

/-- FREE VALUE: the answer of the line agent to sample number `n` where the state lists no answer
(`10_state.md` R32: "any value, under no law"; log 3). -/
opaque freeLine : Nat → Bool

/-- FREE VALUE: the answer of the clock agent to read number `n` where the state lists no answer
(`10_state.md` R33: "under no law in the model"; log 4). -/
opaque freeClock : Nat → Word

/-- FREE VALUE: the sign of an exact zero sum in `CTOF` of the operand `c` (`42_accessors.md` R202 names the
real number zero, which two binary32 values denote; log 14). -/
opaque freeZeroSign : Word → Bool

end Config
end Sys2Proof
end

