-- ==== Sys2Proof/Machine/Float.lean ====
section
/-! DEFINITION. Binary32 arithmetic as far as the block computes it (`00_scope.md` R14, `42_accessors.md` R202).
Every finite binary32 value is an integer number of units of 2^-149, so a value is held exactly as a sign and a
natural number of units, each operation is computed exactly, and `rne` rounds once at its end. -/

namespace Sys2Proof.Machine

/-- The sign bit, bit 31. -/
def f32Sign (v : Word) : Bool := v.getLsbD 31

/-- The exponent field, bits 30:23. -/
def f32Expo (v : Word) : Nat := (v.extractLsb' 23 8).toNat

/-- The fraction field, bits 22:0. -/
def f32Frac (v : Word) : Nat := (v.extractLsb' 0 23).toNat

/-- `isNaN(v)` (R14). -/
def isNaN (v : Word) : Bool := f32Expo v == 0xFF && f32Frac v != 0

/-- The two infinities. -/
def isInf (v : Word) : Bool := f32Expo v == 0xFF && f32Frac v == 0

/-- `neg(v)` flips bit 31 (R14). -/
def f32Neg (v : Word) : Word := v ^^^ 0x80000000#32

/-- The magnitude of a finite value in units of 2^-149: the fraction alone where the exponent field is 0
(zeros and subnormals), and otherwise the fraction with its leading 1 at the exponent's place. -/
def f32Units (v : Word) : Nat :=
  if f32Expo v = 0 then f32Frac v else (2 ^ 23 + f32Frac v) * 2 ^ (f32Expo v - 1)

/-- The least magnitude that is no finite value: 2^128, which is 2^277 units. -/
def f32Overflow : Nat := 2 ^ 128 * 2 ^ 149

/-- The pattern of a sign, an exponent field and a fraction field. -/
def f32Pack (sign : Bool) (expo frac : Nat) : Word :=
  BitVec.ofNat 32 (sign.toNat * 2 ^ 31 + expo * 2 ^ 23 + frac)

/-- The pattern of a magnitude that is representable with 24 significant bits, or the infinity of the sign where
the magnitude is past every finite value (R14: "overflowing to an infinity of the sign of `x`"). -/
def f32Encode (sign : Bool) (units : Nat) : Word :=
  if f32Overflow ≤ units then f32Pack sign 0xFF 0
  else if units < 2 ^ 23 then f32Pack sign 0 units
  else f32Pack sign (Nat.log2 units - 22) (units / 2 ^ (Nat.log2 units - 23) - 2 ^ 23)

/-- The distance, in units, between neighbouring values of 24 significant bits around `num / den` units. -/
def f32Quantum (num den : Nat) : Nat := 2 ^ (Nat.log2 (num / den) - 23)

/-- `num / den` units rounded to the nearest multiple of the quantum, ties to the even multiple (R14 `rne`). -/
def roundUnits (num den : Nat) : Nat :=
  let d := den * f32Quantum num den
  let m := num / d
  let r := num % d
  let k := if 2 * r < d then m else if d < 2 * r then m + 1 else if m % 2 = 0 then m else m + 1
  k * f32Quantum num den

/-- `rne` of the real number of that sign whose magnitude is `num / den` units (R14). -/
def rne (sign : Bool) (num den : Nat) : Word := f32Encode sign (roundUnits num den)

/-- `f32(n)`: the value of an integer below 2^24, exactly (R14). -/
def f32OfNat (n : Nat) : Word := rne false (n * 2 ^ 149) 1

/-- `rne(c * num / den)` for a `c` that is no NaN; an infinity stays itself (R202). -/
def f32Scale (c : Word) (num den : Nat) : Word :=
  if isInf c then c else rne (f32Sign c) (f32Units c * num) den

/-- The exact value of a finite pattern, in units. -/
def f32Int (v : Word) : Int := if f32Sign v then -(f32Units v : Int) else (f32Units v : Int)

/-- `rne(c + n)` for a `c` that is no NaN and a natural `n`; an infinity stays itself (R202). An exact sum of zero
takes the sign `zeroSign`: R202 does not say which zero it is (log 14). -/
def f32AddNat (c : Word) (n : Nat) (zeroSign : Bool) : Word :=
  if isInf c then c
  else
    let sum := f32Int c + ((n * 2 ^ 149 : Nat) : Int)
    if sum = 0 then f32Pack zeroSign 0 0 else rne (decide (sum < 0)) sum.natAbs 1

/-- `CTOF(c)` (R202): a NaN gives NAN32; otherwise `rne(rne(rne(c * 9) / 5) + 32)`, three roundings. -/
def ctof (c : Word) : Word :=
  if isNaN c then Config.nan32
  else f32AddNat (f32Scale (f32Scale c 9 1) 1 5) 32 (Config.freeZeroSign c)

end Sys2Proof.Machine
end

