-- ==== Sys2Proof/Syntax.lean ====
section
/-! DEFINITION. The command set (`30_encoding.md` R110): one constructor per row of spec/opcode_table.json.
A field a command ignores is no argument of its constructor (R111). -/

namespace Sys2Proof

/-- A decoded command word. -/
inductive Instr where
  /-- NOP, opcode 0x0 (`42_accessors.md` R200). -/
  | nop
  /-- BEGIN, opcode 0x1 (`40_init.md` R131). -/
  | beginCmd
  /-- BEGIN_ARG, opcode 0x2; its operand is `ARG[15:0]`, no field of the word (`40_init.md` R132). -/
  | beginArg
  /-- READ_HUM, opcode 0x3, with the FORCE bit (`42_accessors.md` R190). -/
  | readHum (force : Bool)
  /-- READ_TEMP, opcode 0x4, with the FORCE and FAHR bits (`42_accessors.md` R195). -/
  | readTemp (force fahr : Bool)
  /-- CONVERT_C_TO_F, opcode 0x5; its operand is `ARG[31:0]` (`42_accessors.md` R199). -/
  | convertCToF
  /-- Reserved opcode 0x6 (`42_accessors.md` R201), and so on to 0xF. -/
  | reserved6
  | reserved7
  | reserved8
  | reserved9
  | reservedA
  | reservedB
  | reservedC
  | reservedD
  | reservedE
  | reservedF
  deriving DecidableEq, Repr

end Sys2Proof
end

