-- ==== Sys2Proof/Decode.lean ====
section
/-! DEFINITION. The command-word decoder and encoder (`30_encoding.md` R110, R111, R113, R115) and the
little-endian byte view of a word (`20_memory.md` R83). Every 32-bit value is a command word (R111), so the only
thing a decoder of bytes rejects is a list too short to hold one. -/

namespace Sys2Proof

/-- Why a byte list decodes to no command. -/
inductive Reject where
  /-- Fewer than the four bytes of the one command format (`30_encoding.md` R115: one 32-bit write). -/
  | truncated
  deriving DecidableEq, Repr

/-- Byte `i` of a word: `reg[8i+7:8i]` (`20_memory.md` R83). -/
def wordByte (w : Word) (i : Nat) : Byte := w.extractLsb' (8 * i) 8

/-- The word whose byte `i` is `b i`, little-endian (`20_memory.md` R83). -/
def wordOfBytes (b0 b1 b2 b3 : Byte) : Word := b3 ++ b2 ++ b1 ++ b0

/-- A word as its four bytes, the byte at the lowest address first. -/
def bytesOfWord (w : Word) : List Byte := [wordByte w 0, wordByte w 1, wordByte w 2, wordByte w 3]

/-- `OP = w[3:0]` (R110). -/
def opField (w : Word) : BitVec 4 := w.extractLsb' 0 4

/-- `FORCE = w[4]` (R110). -/
def forceField (w : Word) : Bool := w.getLsbD 4

/-- `FAHR = w[5]` (R110). -/
def fahrField (w : Word) : Bool := w.getLsbD 5

/-- The command a word runs: `OP` alone selects it, and only the fields it uses are read (R110, R111, R115). -/
def decodeWord (w : Word) : Instr :=
  match (opField w).toNat with
  | 0x0 => .nop
  | 0x1 => .beginCmd
  | 0x2 => .beginArg
  | 0x3 => .readHum (forceField w)
  | 0x4 => .readTemp (forceField w) (fahrField w)
  | 0x5 => .convertCToF
  | 0x6 => .reserved6
  | 0x7 => .reserved7
  | 0x8 => .reserved8
  | 0x9 => .reserved9
  | 0xA => .reservedA
  | 0xB => .reservedB
  | 0xC => .reservedC
  | 0xD => .reservedD
  | 0xE => .reservedE
  | _ => .reservedF

/-- Decode the first command of a byte list; the rest of the list is answered beside it. -/
def decodeBytes : List Byte → Except Reject (Instr × List Byte)
  | b0 :: b1 :: b2 :: b3 :: rest => .ok (decodeWord (wordOfBytes b0 b1 b2 b3), rest)
  | _ => .error .truncated

/-- The opcode of a command (R110's table). -/
def opcode : Instr → BitVec 4
  | .nop => 0x0#4
  | .beginCmd => 0x1#4
  | .beginArg => 0x2#4
  | .readHum _ => 0x3#4
  | .readTemp _ _ => 0x4#4
  | .convertCToF => 0x5#4
  | .reserved6 => 0x6#4
  | .reserved7 => 0x7#4
  | .reserved8 => 0x8#4
  | .reserved9 => 0x9#4
  | .reservedA => 0xA#4
  | .reservedB => 0xB#4
  | .reservedC => 0xC#4
  | .reservedD => 0xD#4
  | .reservedE => 0xE#4
  | .reservedF => 0xF#4

/-- The bits of a command word the command uses: `OP`, and the flags its row of R110 lists. -/
def usedMask : Instr → Word
  | .readHum _ => 0x0000001F#32
  | .readTemp _ _ => 0x0000003F#32
  | .nop | .beginCmd | .beginArg | .convertCToF | .reserved6 | .reserved7 | .reserved8 | .reserved9
  | .reservedA | .reservedB | .reservedC | .reservedD | .reservedE | .reservedF => 0x0000000F#32

/-- The FORCE bit the encoder writes: 0 where the command ignores it (R111, R117). -/
def encodedForce : Instr → Bool
  | .readHum f => f
  | .readTemp f _ => f
  | .nop | .beginCmd | .beginArg | .convertCToF | .reserved6 | .reserved7 | .reserved8 | .reserved9
  | .reservedA | .reservedB | .reservedC | .reservedD | .reservedE | .reservedF => false

/-- The FAHR bit the encoder writes: 0 where the command ignores it (R111, R117). -/
def encodedFahr : Instr → Bool
  | .readTemp _ g => g
  | .readHum _ | .nop | .beginCmd | .beginArg | .convertCToF | .reserved6 | .reserved7 | .reserved8
  | .reserved9 | .reservedA | .reservedB | .reservedC | .reservedD | .reservedE | .reservedF => false

/-- The command word of a command, every ignored bit 0: the words of `30_encoding.md` R116. -/
def encode (i : Instr) : Word :=
  0#26 ++ (BitVec.ofBool (encodedFahr i) ++ (BitVec.ofBool (encodedForce i) ++ opcode i))

/-- The command word of a row of spec/opcode_table.json given as `nbits` bits of value `w`; every bit above is 0. -/
def tableWord (nbits w : Nat) : Word := BitVec.ofNat 32 (w % 2 ^ nbits)

/-- What the decoder reads from a table row's bits: the word laid out as four bytes and decoded. -/
def decodeTableWord (nbits w : Nat) : Option Instr :=
  match decodeBytes (bytesOfWord (tableWord nbits w)) with
  | .ok (i, _) => some i
  | .error _ => none

end Sys2Proof
end

