-- ==== Sys2Proof/Machine/State.lean ====
section
/-! DEFINITION. The state of the block (`10_state.md`), the agents' pending inputs, and the state after reset
(`10_state.md` R65). Plain data throughout. -/

namespace Sys2Proof.Machine

/-- Why the machine stops. The block itself never traps (`60_exceptions.md` R247): both reasons below are about a
host access that is not a defined one. -/
inductive Fault where
  /-- Raised by a host access inside the window that is not a 32-bit access at a multiple of 4. `20_memory.md` R81:
  "A model gives such an access no step: the host is stuck there". Safe: the platform's response is open. -/
  | badAccess
  deriving DecidableEq, Repr

/-- Why an access or a command has no meaning in this model. -/
inductive Refusal where
  /-- Raised by an arm of `exec` whose command has no meaning yet: none. Safe. -/
  | notModelled (mnemonic : String)
  /-- Raised by a host access outside `BASE .. BASE + 0x3F`: "what it reaches is the platform's"
  (`20_memory.md` R82). Safe: the model says nothing of it. -/
  | outsideWindow
  deriving DecidableEq, Repr

/-- `STATUS.OUTCOME`: the result of the last refresh (`10_state.md` R42). -/
inductive RefreshOutcome where
  | none
  | skipped
  | fresh
  | failed
  deriving DecidableEq, Repr

/-- `STATUS.ERR`: the codes that are ever produced (`60_exceptions.md` R241). -/
inductive ErrCode where
  | none
  | timeout
  | checksum
  | notInit
  | badCmd
  | badConfig
  deriving DecidableEq, Repr

/-- What a `raise` inside a wire cycle reports (`60_exceptions.md` R246). -/
inductive AbortCause where
  | timeout
  | checksumMismatch
  deriving DecidableEq, Repr

/-- The mode of the line port (`10_state.md` R31). -/
inductive PinMode where
  | outHigh
  | outLow
  | inPullup
  deriving DecidableEq, Repr

/-- The result of a measurement (`00_scope.md` R15): a count, or the distinct value TIMEOUT. -/
inductive Count where
  | value (n : Word)
  | timeout
  deriving DecidableEq, Repr

/-- Five bytes in RawSample order: the staging buffer (`10_state.md` R55). -/
structure Sample where
  b0 : Byte
  b1 : Byte
  b2 : Byte
  b3 : Byte
  b4 : Byte
  deriving DecidableEq, Repr

/-- The micro-operation the sequencer performs next (`10_state.md` R35). Each primitive of `00_scope.md` R12 is a
step of its own, so a micro-phase of R35 that drives the port and then waits has two entries here, one that
measures has an entry for the guard and one for its samples, and R_VALIDATE has its guard exit and its test
(log 7). The abort path "takes one step" (`60_exceptions.md` R246) and has an entry (log 8). -/
inductive Phase where
  /-- B_HIGH: `PinDriveHigh()` is next. -/
  | bHigh
  /-- B_HIGH: `DelayUs(T_IDLE_US)` is next. -/
  | bHighWait
  /-- B_WAKE: `PinDriveLow()` is next. -/
  | bWake
  /-- B_WAKE: `DelayUs(T_WAKE_US)` is next. -/
  | bWakeWait
  /-- B_SETTLE: `PinRelease()` is next. -/
  | bSettle
  /-- B_SETTLE: `DelayUs(settle)` is next. -/
  | bSettleWait
  /-- B_REF: `GuardEnter()` is next. -/
  | bRefEnter
  /-- B_REF: one `LineRead()` of `MEASURE(0, BUDGET_DEFAULT)` is next. -/
  | bRef
  /-- B_END: one step, with the measurement's result (`40_init.md` R136). -/
  | bEnd (r : Count)
  /-- R_CHECK: the rate-limit check (`41_refresh.md` R152). -/
  | rCheck
  /-- R_WAKE: `PinDriveLow()` is next. -/
  | rWake
  /-- R_WAKE: `DelayUs(T_WAKE_US)` is next. -/
  | rWakeWait
  /-- R_SETTLE: `PinRelease()` is next. -/
  | rSettle
  /-- R_SETTLE: `DelayUs(SETTLE[15:0])` is next. -/
  | rSettleWait
  /-- R_MEAS(0): `GuardEnter()` and the clearing of `stage` are next. -/
  | rMeasEnter
  /-- R_MEAS(j): one `LineRead()` of measurement `j` is next (`41_refresh.md` R157). -/
  | rMeas (j : Fin 82)
  /-- R_VALIDATE: `GuardExit()` is next (`41_refresh.md` R164). -/
  | rGuardExit
  /-- R_VALIDATE: the checksum test is next (`41_refresh.md` R165). -/
  | rValidate
  /-- R_COMMIT: the clock read and the writes of `41_refresh.md` R166, one step. -/
  | rCommit
  /-- The abort path of `60_exceptions.md` R246, one step. -/
  | rAbort (cause : AbortCause)
  /-- R_DECODE: the accessor's decode and `Complete()`, one step. -/
  | rDecode
  deriving DecidableEq, Repr

/-- The sequencer (`10_state.md` R34): `IDLE`, or `RUN(op, phase)` with `op` the latched opcode of the state. -/
inductive Seq where
  | idle
  | run (phase : Phase)
  deriving DecidableEq, Repr

/-- A move of the host (`00_scope.md` R13, `30_encoding.md` R116). An access names its address by the offset
`addr - BASE`, an integer, so that every address has one whatever `BASE` is (log 15). -/
inductive HostOp where
  /-- A read of `width` bytes at `BASE + off`. -/
  | rd (off : Int) (width : Nat)
  /-- A write of `width` bytes at `BASE + off`. -/
  | wr (off : Int) (width : Nat) (value : Word)
  /-- The pseudo-instruction WAITIDLE: `L: RD STATUS -> s; if s[0] = 1 goto L`. -/
  | waitIdle
  deriving DecidableEq, Repr

/-- One entry of the interleaving of `20_memory.md` R89: which agent moves, and how. -/
inductive Event where
  /-- The host makes an access. -/
  | host (op : HostOp)
  /-- The sequencer takes one micro-step. -/
  | seqMove
  /-- A step in which the input `rst` is asserted (`70_reset_and_hazards.md` R280). -/
  | rst
  deriving DecidableEq, Repr

/-- The state of one block and of the inputs it is given. -/
structure State where
  /-- CONFIG.TYPE (`10_state.md` R43). -/
  configType : Byte
  /-- ARG (R44). -/
  arg : Word
  /-- RESULT (R46). -/
  result : Word
  /-- RAW0 (R47). -/
  raw0 : Word
  /-- RAW1[7:0] (R48). -/
  raw1 : Byte
  /-- TS (R49). -/
  ts : Word
  /-- BUDGET (R50). -/
  budget : Word
  /-- BITTHR (R51). -/
  bitthr : Word
  /-- SETTLE[15:0] (R52). -/
  settle : Half
  /-- STATUS.BUSY (R42, R34). -/
  busy : Bool
  /-- STATUS.INIT (R42). -/
  init : Bool
  /-- STATUS.VALID (R42, R45). -/
  valid : Bool
  /-- STATUS.GUARD, the guard's only state (R57). -/
  guardActive : Bool
  /-- STATUS.CALDEF (R42). -/
  caldef : Bool
  /-- STATUS.NODATA (R42). -/
  nodata : Bool
  /-- STATUS.OUTCOME (R42). -/
  outcome : RefreshOutcome
  /-- STATUS.ERR (R42). -/
  err : ErrCode
  /-- The sequencer (R34). -/
  seq : Seq
  /-- The latched opcode (R56). -/
  op : BitVec 4
  /-- The latched FORCE bit (R56). -/
  force : Bool
  /-- The latched FAHR bit (R56). -/
  fahr : Bool
  /-- The iteration counter of the current measurement (R56). -/
  cnt : Word
  /-- The index of the data bit being measured (R56). -/
  bitk : Fin 40
  /-- The count of the last data-bit high pulse (R56). -/
  hcnt : Word
  /-- The staging buffer (R55). -/
  stage : Sample
  /-- The mode of the line port (R31). -/
  pinMode : PinMode
  /-- MODEL'S OWN: the instance's parameters, or `none` where they are left open (log 1). No step writes it. -/
  inst : Option Params
  /-- MODEL'S OWN: the moves still to come, first to be taken first (log 5). -/
  agenda : List Event
  /-- MODEL'S OWN: the line agent's answers still to come (log 3). -/
  lineIn : List Bool
  /-- MODEL'S OWN: the clock agent's answers still to come (log 4). -/
  clockIn : List Word
  /-- MODEL'S OWN: line samples taken so far (log 12). -/
  lineTaken : Nat
  /-- MODEL'S OWN: clock reads made so far (log 12). -/
  clockTaken : Nat
  /-- MODEL'S OWN: microseconds waited so far (log 12). -/
  waitedUs : Nat
  /-- MODEL'S OWN: the bus port's data of the last host read (R30 `bus`; log 11). -/
  rdata : Word
  deriving DecidableEq, Repr

namespace State

/-- The state after reset: the table of `10_state.md` R65, no pending input, and the parameters left open. -/
def reset : State where
  configType := 0x00#8
  arg := 0x00000000#32
  result := Config.nan32
  raw0 := 0x00000000#32
  raw1 := 0x00#8
  ts := 0x00000000#32
  budget := 0x00000000#32
  bitthr := 0x00000000#32
  settle := 0x0000#16
  busy := false
  init := false
  valid := false
  guardActive := false
  caldef := false
  nodata := false
  outcome := .none
  err := .none
  seq := .idle
  op := 0x0#4
  force := false
  fahr := false
  cnt := 0x00000000#32
  bitk := 0
  hcnt := 0x00000000#32
  stage := { b0 := 0x00#8, b1 := 0x00#8, b2 := 0x00#8, b3 := 0x00#8, b4 := 0x00#8 }
  pinMode := .inPullup
  inst := none
  agenda := []
  lineIn := []
  clockIn := []
  lineTaken := 0
  clockTaken := 0
  waitedUs := 0
  rdata := 0x00000000#32

end State
end Sys2Proof.Machine
end

