-- ==== Sys2Proof/Machine/Ops.lean ====
section
/-! DEFINITION. The named operations over the state: the primitives of `00_scope.md` R12, the sequencer's
bookkeeping (`10_state.md` R34), the guard (`43_guard.md`), one sample of a measurement (`41_refresh.md` R160), the
staging buffer, the abort path (`60_exceptions.md` R246) and reset (`70_reset_and_hazards.md` R280). -/

namespace Sys2Proof.Machine
namespace State

/-- The parameters of this block: its instance's, or the open ones. -/
def params (s : State) : Params := s.inst.getD Config.openParams

/-- Take the pending moves away up to `rest`. -/
def withAgenda (s : State) (rest : List Event) : State := { s with agenda := rest }

/-- The bus port answers a host read with `w` (`10_state.md` R30 `bus`). -/
def withRdata (s : State) (w : Word) : State := { s with rdata := w }

/-- Acceptance latches `op`, `force` and `fahr` of the command word (`10_state.md` R34, R56). -/
def latchCommand (s : State) (w : Word) : State :=
  { s with op := opField w, force := forceField w, fahr := fahrField w }

/-- `STATUS.ERR <- e`. -/
def setErr (s : State) (e : ErrCode) : State := { s with err := e }

/-- `RESULT <- w`. -/
def setResult (s : State) (w : Word) : State := { s with result := w }

/-- `STATUS.NODATA <- b`. -/
def setNodata (s : State) (b : Bool) : State := { s with nodata := b }

/-- The sequencer goes on at phase `p`. -/
def goto (s : State) (p : Phase) : State := { s with seq := .run p }

/-- The acceptance step of a sequenced command: `STATUS.BUSY <- 1`, `RUN(op, first phase)` (`10_state.md` R34). -/
def start (s : State) (opcode : BitVec 4) (p : Phase) : State :=
  { s with op := opcode, busy := true, seq := .run p }

/-- `Complete()`: `STATUS.BUSY <- 0` and the sequencer is IDLE (`10_state.md` R34). -/
def complete (s : State) : State := { s with busy := false, seq := .idle }

/-- `PinDriveHigh()` (`10_state.md` R31). -/
def pinDriveHigh (s : State) : State := { s with pinMode := .outHigh }

/-- `PinDriveLow()` (`10_state.md` R31). -/
def pinDriveLow (s : State) : State := { s with pinMode := .outLow }

/-- `PinRelease()` (`10_state.md` R31). -/
def pinRelease (s : State) : State := { s with pinMode := .inPullup }

/-- `DelayUs(n)`: one step; the model has no time and only sums the wait (`70_reset_and_hazards.md` R302). -/
def delayUs (s : State) (n : Nat) : State := { s with waitedUs := s.waitedUs + n }

/-- `GuardEnter()` (`43_guard.md` R231). -/
def guardEnter (s : State) : State := { s with guardActive := true }

/-- `GuardExit()` (`43_guard.md` R232). -/
def guardExit (s : State) : State := { s with guardActive := false }

/-- The bit the line agent answers to the next sample, 1 = true = high (`10_state.md` R32): the listed answer, or
the free value of this sample where none is listed (log 3). -/
def lineBit (s : State) : Bool := s.lineIn.headD (Config.freeLine s.lineTaken)

/-- The state after that sample was taken. -/
def lineNext (s : State) : State := { s with lineIn := s.lineIn.tail, lineTaken := s.lineTaken + 1 }

/-- The value the clock agent answers to the next read (`10_state.md` R33; log 4). -/
def clockWord (s : State) : Word := s.clockIn.headD (Config.freeClock s.clockTaken)

/-- The state after that read was made. -/
def clockNext (s : State) : State := { s with clockIn := s.clockIn.tail, clockTaken := s.clockTaken + 1 }

/-- `cnt <- n`. -/
def setCnt (s : State) (n : Word) : State := { s with cnt := n }

/-- `hcnt <- n`. -/
def setHcnt (s : State) (n : Word) : State := { s with hcnt := n }

/-- `stage <- x`. -/
def setStage (s : State) (x : Sample) : State := { s with stage := x }

/-- The data bit to be measured next has index `k`. -/
def setBitk (s : State) (k : Fin 40) : State := { s with bitk := k }

/-- Output `pin_dir` (`10_state.md` R31): 1 = the block drives the line. -/
def pinDir (s : State) : Bool :=
  match s.pinMode with
  | .outHigh => true
  | .outLow => true
  | .inPullup => false

/-- Output `pin_out` (`10_state.md` R31): the level driven; 1 and without effect while the line is released. -/
def pinOut (s : State) : Bool :=
  match s.pinMode with
  | .outHigh => true
  | .outLow => false
  | .inPullup => true

/-- Output `irq_suppress` (`43_guard.md` R230, R235). -/
def irqSuppress (s : State) : Bool := s.guardActive && s.params.guardEn

end State

/-- One sample of `MEASURE(lvl, bound)` (`41_refresh.md` R160): the result where this sample ends the measurement,
and the state after it. The sample that ends a pulse is consumed; a sample at the level times out where the
count already equals the bound. -/
def measureSample (lvl : Bool) (bound : Word) (s : State) : Option Count × State :=
  if s.lineBit ≠ lvl then (some (.value s.cnt), s.lineNext)
  else if bound ≤ s.cnt then (some .timeout, s.lineNext)
  else (none, s.lineNext.setCnt (s.cnt + 1#32))

/-- `CLASSIFY(Value(h))` (`41_refresh.md` R162): 1 when `h` exceeds `BITTHR`, an unsigned comparison. -/
def classify (h bitthr : Word) : Bool := decide (bitthr < h)

/-- `byte(x * 2 + b)` (`41_refresh.md` R163, R170): shift a data bit in from the right. -/
def pushBit (x : Byte) (b : Bool) : Byte := BitVec.ofNat 8 (x.toNat * 2 + b.toNat)

/-- `stage[i] <- byte(stage[i] * 2 + b)` (`41_refresh.md` R163); there is no byte past the fifth. -/
def Sample.shiftIn (x : Sample) (i : Nat) (b : Bool) : Sample :=
  match i with
  | 0 => { x with b0 := pushBit x.b0 b }
  | 1 => { x with b1 := pushBit x.b1 b }
  | 2 => { x with b2 := pushBit x.b2 b }
  | 3 => { x with b3 := pushBit x.b3 b }
  | 4 => { x with b4 := pushBit x.b4 b }
  | _ => x

/-- `stage[0..4] <- 0x00`. -/
def Sample.zero : Sample := { b0 := 0#8, b1 := 0#8, b2 := 0#8, b3 := 0#8, b4 := 0#8 }

/-- The checksum law (`30_encoding.md` R103, `41_refresh.md` R165): byte 4 is the sum of the other four, mod 256. -/
def Sample.checksumOk (x : Sample) : Bool :=
  decide ((x.b0.toNat + x.b1.toNat + x.b2.toNat + x.b3.toNat) % Config.checksumMod = x.b4.toNat)

/-- `RAW0` of a sample: byte `i` in bits `8i+7:8i` (`10_state.md` R47, `41_refresh.md` R151). -/
def Sample.raw0 (x : Sample) : Word := wordOfBytes x.b0 x.b1 x.b2 x.b3

/-- The ReadCache as a sample: `raw(i)` of `10_state.md` R47 and R48. -/
def State.cache (s : State) : Sample where
  b0 := wordByte s.raw0 0
  b1 := wordByte s.raw0 1
  b2 := wordByte s.raw0 2
  b3 := wordByte s.raw0 3
  b4 := s.raw1

/-- The error code an abort records (`60_exceptions.md` R246). -/
def AbortCause.code : AbortCause → ErrCode
  | .timeout => .timeout
  | .checksumMismatch => .checksum

/-- TAKING THE BLOCK'S ONE ERROR ENTRY, the abort path (`60_exceptions.md` R246): the guard is exited, the line
stays released, `OUTCOME` and `ERR` record the failure, the ReadCache is unchanged, and the accessor goes on to
its decode step. No state is saved and no vector is taken (R247). -/
def abort (cause : AbortCause) (s : State) : State :=
  { s with guardActive := false, outcome := .failed, err := cause.code, seq := .run .rDecode }

/-- The `return` from an abort (`60_exceptions.md` R247) is the accessor's decode step, which writes the result,
says in NODATA whether there was one, and completes (`42_accessors.md` R190, R195). -/
def finishAccessor (result : Word) (nodata : Bool) (s : State) : State :=
  { s with result := result, nodata := nodata, busy := false, seq := .idle }

/-- Reset (`70_reset_and_hazards.md` R280, R281): every piece of the block's state takes its reset value; the
parameters, the agents' pending inputs and the model's own counters are no state of the block and stay. -/
def resetBlock (s : State) : State :=
  { State.reset with
    inst := s.inst
    agenda := s.agenda
    lineIn := s.lineIn
    clockIn := s.clockIn
    lineTaken := s.lineTaken
    clockTaken := s.clockTaken
    waitedUs := s.waitedUs
    rdata := s.rdata }

end Sys2Proof.Machine
end

