-- ==== Sys2Proof/Machine/Operands.lean ====
section
/-! DEFINITION. Every operand form of the command set (`30_encoding.md` R113) and the operands of the internal
operations: the settle time, the Celsius value, the bytes of the cache, and the calibration functions of
`00_scope.md` R9. The flags FORCE and FAHR are fields of the command word (`Sys2Proof.decodeWord`). -/

namespace Sys2Proof.Machine

/-- BEGIN's settle time: the parameter (`40_init.md` R131). -/
def settleDefault (s : State) : Half := s.params.settleDefaultUs

/-- BEGIN_ARG's settle time: `ARG[15:0]`, read at acceptance; `ARG[31:16]` is ignored (`40_init.md` R132). -/
def settleArg (s : State) : Half := s.arg.extractLsb' 0 16

/-- CONVERT_C_TO_F's operand: all of `ARG` as a binary32 pattern (`30_encoding.md` R113). -/
def celsiusArg (s : State) : Word := s.arg

/-- `min(2^32 - 1, floor(n * k / ref))`, computed exactly before the saturation (`00_scope.md` R9). -/
def scaledCount (n k ref : Nat) : Word := BitVec.ofNat 32 (min (2 ^ 32 - 1) (n * k / ref))

/-- `budgetOf(n)` (`00_scope.md` R9). -/
def budgetOf (p : Params) (n : Word) : Word :=
  scaledCount n.toNat p.budgetMarginUs.toNat p.tRefUs.toNat

/-- `thresholdOf(n)` (`00_scope.md` R9). -/
def thresholdOf (p : Params) (n : Word) : Word :=
  scaledCount n.toNat p.tBitThrUs.toNat p.tRefUs.toNat

/-- `HUM(raw) = f32(raw(0))` (`42_accessors.md` R191); byte 1 does not enter (R192). -/
def humOf (x : Sample) : Word := f32OfNat x.b0.toNat

/-- `TEMPC(raw)` (`42_accessors.md` R196): the magnitude is `raw(2)[6:0]` and the sign `raw(2)[7]`; byte 3 does not
enter (R197). -/
def tempCOf (x : Sample) : Word :=
  if x.b2.getLsbD 7 then f32Neg (f32OfNat (x.b2.extractLsb' 0 7).toNat)
  else f32OfNat (x.b2.extractLsb' 0 7).toNat

/-- What READ_TEMP returns for a valid cache (`42_accessors.md` R195). -/
def tempOf (fahr : Bool) (x : Sample) : Word := if fahr then ctof (tempCOf x) else tempCOf x

end Sys2Proof.Machine
end

