-- ==== Sys2Proof/Machine/Accessors.lean ====
section
/-! DEFINITION. READ_HUM, READ_TEMP and CONVERT_C_TO_F (`42_accessors.md`): what `exec` does for them, and the
decode step R_DECODE. -/

namespace Sys2Proof.Machine

/-- `NOT_INIT_RESULT()` (`42_accessors.md` R198). -/
def notInitResult (s : State) : State := ((s.setResult Config.nan32).setNodata true).setErr .notInit

/-- READ_HUM (`42_accessors.md` R190): atomic before BEGIN, and otherwise the acceptance step of the refresh. -/
def execReadHum (force : Bool) (s : State) : Host.Outcome State Fault Refusal :=
  if s.init then .next ({ s with force := force }.start 0x3#4 .rCheck) else .next (notInitResult s)

/-- READ_TEMP (`42_accessors.md` R195). -/
def execReadTemp (force fahr : Bool) (s : State) : Host.Outcome State Fault Refusal :=
  if s.init then .next ({ s with force := force, fahr := fahr }.start 0x4#4 .rCheck) else .next (notInitResult s)

/-- CONVERT_C_TO_F (`42_accessors.md` R199): `RESULT <- CTOF(ARG)`, `ERR <- NONE`, atomic. Its `Complete()` finds the
block idle and changes nothing (log 16). -/
def execConvertCToF (s : State) : Host.Outcome State Fault Refusal :=
  .next ((s.setResult (ctof (celsiusArg s))).setErr .none)

/-- What the running accessor returns for a valid cache: READ_TEMP's latched opcode is 0x4 (R195), and the other
accessor is READ_HUM (R190; log 18). -/
def accessorValue (s : State) : Word := if s.op = 0x4#4 then tempOf s.fahr s.cache else humOf s.cache

/-- R_DECODE, one step (`42_accessors.md` R190, R195): the value of the cache, or the sentinel unconverted where no
read has succeeded; then `Complete()`. -/
def rDecodeStep (s : State) : State :=
  if s.valid then finishAccessor (accessorValue s) false s else finishAccessor Config.nan32 true s

end Sys2Proof.Machine
end

