-- ==== Sys2Proof/Machine/Init.lean ====
section
/-! DEFINITION. BEGIN and BEGIN_ARG (`40_init.md`): the acceptance step of `INIT_SEQ` (R136), which is what `exec`
does, and the micro-phases B_HIGH to B_END, which are steps of the sequencer. -/

namespace Sys2Proof.Machine

/-- The acceptance step of `INIT_SEQ(settle)` (`40_init.md` R136). A reserved discriminator makes the command atomic:
`ERR <- BAD_CONFIG` and nothing else (R133). -/
def initSeq (opcode : BitVec 4) (settle : Half) (s : State) : State :=
  if s.configType ≠ 0x00#8 then s.setErr .badConfig
  else { s with settle := settle }.start opcode .bHigh

/-- BEGIN (`40_init.md` R131). -/
def execBegin (s : State) : Host.Outcome State Fault Refusal := .next (initSeq 0x1#4 (settleDefault s) s)

/-- BEGIN_ARG (`40_init.md` R132). -/
def execBeginArg (s : State) : Host.Outcome State Fault Refusal := .next (initSeq 0x2#4 (settleArg s) s)

/-- B_REF's first micro-operation: `GuardEnter()`, and the measurement starts with `cnt <- 0` (R136, `41_refresh.md`
R160). -/
def bRefEnterStep (s : State) : State := (s.guardEnter.setCnt 0#32).goto .bRef

/-- One sample of `MEASURE(0, BUDGET_DEFAULT)` (R134, R136). -/
def bRefStep (s : State) : State :=
  match measureSample false s.params.budgetDefault s with
  | (some r, t) => t.goto (.bEnd r)
  | (none, t) => t

/-- The calibration of R134: the observed reference pulse gives budget and threshold, and a timeout or a count of 0
the defaults. -/
def calibrate (r : Count) (s : State) : State :=
  match r with
  | .timeout => { s with budget := s.params.budgetDefault, bitthr := s.params.thrDefault, caldef := true }
  | .value n =>
    if n = 0#32 then { s with budget := s.params.budgetDefault, bitthr := s.params.thrDefault, caldef := true }
    else { s with budget := budgetOf s.params n, bitthr := thresholdOf s.params n, caldef := false }

/-- The cache initialisation of R135. -/
def initCache (s : State) : State :=
  { s with raw0 := 0#32, raw1 := 0#8, ts := 0#32, valid := false, outcome := .none, nodata := false, init := true,
           err := .none }

/-- B_END, one step: guard exit, calibration, cache initialisation, `Complete()` (R136). -/
def bEndStep (r : Count) (s : State) : State := (initCache (calibrate r s.guardExit)).complete

end Sys2Proof.Machine
end

