-- ==== Sys2Proof/Machine/Reserved.lean ====
section
/-! DEFINITION. NOP (`42_accessors.md` R200) and the reserved opcodes 0x6 to 0xF (R201). -/

namespace Sys2Proof.Machine

/-- NOP: atomic, no state changes, `STATUS.ERR` included (R200). -/
def execNop (s : State) : Host.Outcome State Fault Refusal := .next s

/-- What every reserved opcode does: `STATUS.ERR <- BAD_CMD`, nothing else (R201). -/
def reservedOpcode (s : State) : State := s.setErr .badCmd

/-- Reserved opcode 0x6 (R201). -/
def execReserved6 (s : State) : Host.Outcome State Fault Refusal := .next (reservedOpcode s)

/-- Reserved opcode 0x7 (R201). -/
def execReserved7 (s : State) : Host.Outcome State Fault Refusal := .next (reservedOpcode s)

/-- Reserved opcode 0x8 (R201). -/
def execReserved8 (s : State) : Host.Outcome State Fault Refusal := .next (reservedOpcode s)

/-- Reserved opcode 0x9 (R201). -/
def execReserved9 (s : State) : Host.Outcome State Fault Refusal := .next (reservedOpcode s)

/-- Reserved opcode 0xA (R201). -/
def execReservedA (s : State) : Host.Outcome State Fault Refusal := .next (reservedOpcode s)

/-- Reserved opcode 0xB (R201). -/
def execReservedB (s : State) : Host.Outcome State Fault Refusal := .next (reservedOpcode s)

/-- Reserved opcode 0xC (R201). -/
def execReservedC (s : State) : Host.Outcome State Fault Refusal := .next (reservedOpcode s)

/-- Reserved opcode 0xD (R201). -/
def execReservedD (s : State) : Host.Outcome State Fault Refusal := .next (reservedOpcode s)

/-- Reserved opcode 0xE (R201). -/
def execReservedE (s : State) : Host.Outcome State Fault Refusal := .next (reservedOpcode s)

/-- Reserved opcode 0xF (R201). -/
def execReservedF (s : State) : Host.Outcome State Fault Refusal := .next (reservedOpcode s)

end Sys2Proof.Machine
end

