-- ==== Sys2Proof/Machine/Dispatch.lean ====
section
/-! DEFINITION. What an accepted command does in the step that accepts it: one arm per constructor. -/

namespace Sys2Proof.Machine

def exec (i : Instr) (s : State) : Host.Outcome State Fault Refusal :=
  match i with
  | .nop => Sys2Proof.Machine.execNop s
  | .beginCmd => Sys2Proof.Machine.execBegin s
  | .beginArg => Sys2Proof.Machine.execBeginArg s
  | .readHum force => Sys2Proof.Machine.execReadHum force s
  | .readTemp force fahr => Sys2Proof.Machine.execReadTemp force fahr s
  | .convertCToF => Sys2Proof.Machine.execConvertCToF s
  | .reserved6 => Sys2Proof.Machine.execReserved6 s
  | .reserved7 => Sys2Proof.Machine.execReserved7 s
  | .reserved8 => Sys2Proof.Machine.execReserved8 s
  | .reserved9 => Sys2Proof.Machine.execReserved9 s
  | .reservedA => Sys2Proof.Machine.execReservedA s
  | .reservedB => Sys2Proof.Machine.execReservedB s
  | .reservedC => Sys2Proof.Machine.execReservedC s
  | .reservedD => Sys2Proof.Machine.execReservedD s
  | .reservedE => Sys2Proof.Machine.execReservedE s
  | .reservedF => Sys2Proof.Machine.execReservedF s

end Sys2Proof.Machine
end

