-- ==== Sys2Proof/Machine/Flags.lean ====
section
/-! DEFINITION. The STATUS word (`10_state.md` R42), its codes, and the host's view of the register window
(`10_state.md` R40 to R53, `20_memory.md` R80 to R83). -/

namespace Sys2Proof.Machine

/-- `OUTCOME` codes (`10_state.md` R42). -/
def RefreshOutcome.bits : RefreshOutcome → BitVec 2
  | .none => 0#2
  | .skipped => 1#2
  | .fresh => 2#2
  | .failed => 3#2

/-- `ERR` codes (`60_exceptions.md` R241); 6 to 15 are never produced. -/
def ErrCode.bits : ErrCode → BitVec 4
  | .none => 0#4
  | .timeout => 1#4
  | .checksum => 2#4
  | .notInit => 3#4
  | .badCmd => 4#4
  | .badConfig => 5#4

/-- The STATUS register (`10_state.md` R42): ERR in 15:12, OUTCOME in 9:8, NODATA 5, CALDEF 4, GUARD 3, VALID 2,
INIT 1, BUSY 0, every other bit 0. -/
def statusWord (s : State) : Word :=
  0#16 ++ (s.err.bits ++ (0#2 ++ (s.outcome.bits ++ (0#2 ++ (BitVec.ofBool s.nodata ++ (BitVec.ofBool s.caldef ++
    (BitVec.ofBool s.guardActive ++ (BitVec.ofBool s.valid ++ (BitVec.ofBool s.init ++ BitVec.ofBool s.busy)))))))))

/-- `RegRead(off)` at a multiple of 4 in the window (`10_state.md` R40): CMD reads 0 (R41), CONFIG, RAW1 and SETTLE
read their field with 0 above it, reserved offsets read 0 (R53). -/
def readReg (s : State) (off : Nat) : Word :=
  match off with
  | 0x00 => 0#32
  | 0x04 => statusWord s
  | 0x08 => s.configType.setWidth 32
  | 0x0C => s.arg
  | 0x10 => s.result
  | 0x14 => s.raw0
  | 0x18 => s.raw1.setWidth 32
  | 0x1C => s.ts
  | 0x20 => s.budget
  | 0x24 => s.bitthr
  | 0x28 => s.settle.setWidth 32
  | _ => 0#32

/-- Byte `off` of the window (`20_memory.md` R83): byte `off mod 4` of the register that holds it, little-endian. -/
def windowByte (s : State) (off : Nat) : Byte := wordByte (readReg s (off / 4 * 4)) (off % 4)

/-- A host write of CONFIG (`10_state.md` R43): it takes only while `INIT = 0` and `BUSY = 0`. -/
def writeConfig (w : Word) (s : State) : State :=
  if s.init = false ∧ s.busy = false then { s with configType := w.extractLsb' 0 8 } else s

/-- A host write of ARG: all 32 bits, at any time (`10_state.md` R44). -/
def writeArg (w : Word) (s : State) : State := { s with arg := w }

/-- What an access at `BASE + off` of `width` bytes is (`20_memory.md` R80 to R82). -/
inductive AccessClass where
  /-- A defined access: 32 bits at a multiple of 4 in the window; the offset as a natural number. -/
  | register (off : Nat)
  /-- In the window, but not a 32-bit access at a multiple of 4 (R81). -/
  | undefinedAccess
  /-- Outside `BASE .. BASE + 0x3F` (R82). -/
  | outside
  deriving DecidableEq, Repr

/-- Classify an access (`20_memory.md` R80 to R82). -/
def classifyAccess (off : Int) (width : Nat) : AccessClass :=
  if off < 0 ∨ 0x40 ≤ off then .outside
  else if width = 4 ∧ off.toNat % 4 = 0 then .register off.toNat
  else .undefinedAccess

/-- The address of offset `off` of a block (`20_memory.md` R80: `BASE + off`). -/
def addressOf (p : Params) (off : Int) : Int := (p.base : Int) + off

/-- The offset by which an access of address `addr` names a register of a block (log 15). -/
def offsetOf (p : Params) (addr : Int) : Int := addr - (p.base : Int)

end Sys2Proof.Machine
end

