-- ==== Sys2Proof/Machine/Refresh.lean ====
section
/-! DEFINITION. REFRESH (`41_refresh.md` R151): the rate-limit check, the wire cycle's micro-phases, validation and
commit. -/

namespace Sys2Proof.Machine

/-- The skip condition of R152: `force = 0`, a prior success, and less than 2000 ms since it, modulo 2^32. -/
def skips (force valid : Bool) (now ts : Word) : Bool :=
  !force && valid && decide ((now - ts).toNat < Config.rateLimitMs)

/-- R_CHECK: the clock is read once; a skip reuses the cache and goes on to the decode step (R152, R153). -/
def rCheckStep (s : State) : State :=
  if skips s.force s.valid s.clockWord s.ts then
    { s.clockNext with outcome := .skipped, err := .none }.goto .rDecode
  else s.clockNext.goto .rWake

/-- R_MEAS(0)'s first micro-operation: `GuardEnter()`, `stage <- 0`, and the first measurement's `cnt <- 0` (R151). -/
def rMeasEnterStep (s : State) : State := ((s.guardEnter.setStage Sample.zero).setCnt 0#32).goto (.rMeas 0)

/-- The level of pulse `j` (`30_encoding.md` R100): low for even `j`, high for odd `j`. -/
def pulseLevel (j : Nat) : Bool := j % 2 == 1

/-- Pulse `j` is the high pulse of a data bit (`30_encoding.md` R100): odd and at least 3. -/
def isBitHigh (j : Nat) : Bool := j % 2 == 1 && decide (3 ≤ j)

/-- The index of the data bit of pulse `j = 2 + 2k` or `3 + 2k` (`30_encoding.md` R100). -/
def bitIndex (j : Nat) : Fin 40 := ⟨(j - 2) / 2 % 40, Nat.mod_lt _ (by decide)⟩

/-- The next measurement of the wire cycle, or the guard exit after the last (R151, R157). A data bit's index is
set where its low pulse starts. -/
def nextPulse (j : Fin 82) (s : State) : State :=
  if h : j.val + 1 < 82 then
    if 2 ≤ j.val + 1 then ((s.setBitk (bitIndex (j.val + 1))).setCnt 0#32).goto (.rMeas ⟨j.val + 1, h⟩)
    else (s.setCnt 0#32).goto (.rMeas ⟨j.val + 1, h⟩)
  else s.goto .rGuardExit

/-- Classify a data bit's high pulse and shift the bit into the staging buffer (R151, R162, R163). -/
def storeBit (n : Word) (s : State) : State :=
  (s.setHcnt n).setStage (s.stage.shiftIn (s.bitk.val / 8) (classify n s.bitthr))

/-- Measurement `j` ended with the count `n`: only a data bit's high pulse is used (R157). -/
def pulseDone (j : Fin 82) (n : Word) (s : State) : State :=
  if isBitHigh j.val then nextPulse j (storeBit n s) else nextPulse j s

/-- One sample of `MEASURE(level(j), BUDGET)` (R157); a timeout ends the wire cycle at once (R158). -/
def rMeasStep (j : Fin 82) (s : State) : State :=
  match measureSample (pulseLevel j.val) s.budget s with
  | (some (.value n), t) => pulseDone j n t
  | (some .timeout, t) => t.goto (.rAbort .timeout)
  | (none, t) => t

/-- R_VALIDATE's test (R165): the checksum law, or `raise ChecksumMismatch`. -/
def rValidateStep (s : State) : State :=
  if s.stage.checksumOk then s.goto .rCommit else s.goto (.rAbort .checksumMismatch)

/-- R_COMMIT (R166): the second clock read, and all of the ReadCache in one step. -/
def rCommitStep (s : State) : State :=
  { s.clockNext with raw0 := s.stage.raw0, raw1 := s.stage.b4, ts := s.clockWord, valid := true,
                     outcome := .fresh, err := .none }.goto .rDecode

end Sys2Proof.Machine
end

