-- ==== Sys2Proof/Machine/Sequencer.lean ====
section
/-! DEFINITION. One micro-step of the sequencer (`10_state.md` R34, R35; `00_scope.md` R12). -/

namespace Sys2Proof.Machine

/-- The micro-operation of a phase, in the order of `40_init.md` R136 and `41_refresh.md` R151. -/
def phaseStep (p : Phase) (s : State) : State :=
  match p with
  | .bHigh => s.pinDriveHigh.goto .bHighWait
  | .bHighWait => (s.delayUs s.params.tIdleUs.toNat).goto .bWake
  | .bWake => s.pinDriveLow.goto .bWakeWait
  | .bWakeWait => (s.delayUs s.params.tWakeUs.toNat).goto .bSettle
  | .bSettle => s.pinRelease.goto .bSettleWait
  | .bSettleWait => (s.delayUs s.settle.toNat).goto .bRefEnter
  | .bRefEnter => bRefEnterStep s
  | .bRef => bRefStep s
  | .bEnd r => bEndStep r s
  | .rCheck => rCheckStep s
  | .rWake => s.pinDriveLow.goto .rWakeWait
  | .rWakeWait => (s.delayUs s.params.tWakeUs.toNat).goto .rSettle
  | .rSettle => s.pinRelease.goto .rSettleWait
  | .rSettleWait => (s.delayUs s.settle.toNat).goto .rMeasEnter
  | .rMeasEnter => rMeasEnterStep s
  | .rMeas j => rMeasStep j s
  | .rGuardExit => s.guardExit.goto .rValidate
  | .rValidate => rValidateStep s
  | .rCommit => rCommitStep s
  | .rAbort cause => abort cause s
  | .rDecode => rDecodeStep s

/-- The sequencer's move: nothing in IDLE (`70_reset_and_hazards.md` R280: "the block waits for a host command"),
and otherwise the phase's micro-operation. It never stops the machine. -/
def sequence (s : State) : State :=
  match s.seq with
  | .idle => s
  | .run p => phaseStep p s

end Sys2Proof.Machine
end

