-- ==== Sys2Proof/Machine/Bus.lean ====
section
/-! DEFINITION. The host's accesses (`20_memory.md` R80 to R87), command acceptance (`10_state.md` R34,
`70_reset_and_hazards.md` R290), and one move of whichever agent the agenda names. -/

namespace Sys2Proof.Machine

/-- A command word presented to the sequencer: ignored while `STATUS.BUSY = 1` (R290), and otherwise accepted: its
fields are latched (`10_state.md` R34) and the decoded command runs. -/
def acceptCommand (w : Word) (s : State) : Host.Outcome State Fault Refusal :=
  if s.busy then .next s else exec (decodeWord w) (s.latchCommand w)

/-- `RegWrite(off, w)` at a multiple of 4 in the window (`20_memory.md` R80, R87): only CMD, CONFIG and ARG take a
write; every other offset ignores it (`10_state.md` R53). -/
def writeReg (off : Nat) (w : Word) (s : State) : Host.Outcome State Fault Refusal :=
  match off with
  | 0x00 => acceptCommand w s
  | 0x08 => .next (writeConfig w s)
  | 0x0C => .next (writeArg w s)
  | _ => .next s

/-- A host read: the bus port answers with the register as it stands; no other state changes (R85, R87). -/
def hostRead (off : Int) (width : Nat) (s : State) : Host.Outcome State Fault Refusal :=
  match classifyAccess off width with
  | .register k => .next (s.withRdata (readReg s k))
  | .undefinedAccess => .fault .badAccess
  | .outside => .refused .outsideWindow

/-- A host write. -/
def hostWrite (off : Int) (width : Nat) (w : Word) (s : State) : Host.Outcome State Fault Refusal :=
  match classifyAccess off width with
  | .register k => writeReg k w s
  | .undefinedAccess => .fault .badAccess
  | .outside => .refused .outsideWindow

/-- One turn of WAITIDLE (`30_encoding.md` R116): `RD STATUS`; while BUSY reads 1 the loop goes round again, with
one sequencer move between two polls (log 10). -/
def hostPoll (s : State) : State :=
  if s.busy then (s.withRdata (statusWord s)).withAgenda (.seqMove :: .host .waitIdle :: s.agenda)
  else s.withRdata (statusWord s)

/-- The host's move. -/
def hostMove (op : HostOp) (s : State) : Host.Outcome State Fault Refusal :=
  match op with
  | .rd off width => hostRead off width s
  | .wr off width w => hostWrite off width w s
  | .waitIdle => .next (hostPoll s)

/-- One entry of the interleaving (`20_memory.md` R89), already taken from the agenda. -/
def perform (e : Event) (s : State) : Host.Outcome State Fault Refusal :=
  match e with
  | .host op => hostMove op s
  | .seqMove => .next (sequence s)
  | .rst => .next (resetBlock s)

/-- A 32-bit write of a command word to CMD, offset 0x00. -/
def cmdWrite (w : Word) : Event := .host (.wr 0 4 w)

/-- `s` with the command word `w` presented next and the sequencer idle, so that the next step accepts it (log 6). -/
def withCommandWord (s : State) (w : Word) : State :=
  { s with busy := false, seq := .idle, agenda := cmdWrite w :: s.agenda }

end Sys2Proof.Machine
end

