-- ==== Sys2Proof/Machine/Step.lean ====
section
/-! DEFINITION. One step: the move the agenda names first, or the sequencer's where it names none. -/

namespace Sys2Proof.Machine

/-- One step of the interleaving of `20_memory.md` R89. With no move pending, the sequencer moves (log 5). -/
def step (s : State) : Host.Outcome State Fault Refusal :=
  match s.agenda with
  | [] => .next (sequence s)
  | e :: rest => perform e (s.withAgenda rest)

/-- The block fetches no instructions (`20_memory.md` R93): a command reaches it as a host write to CMD. So the word
stands where `step` takes its next command: first in the agenda, with the block idle to accept it (log 6). -/
def State.withFetchWord (s : State) (nbits w : Nat) : State := withCommandWord s (tableWord nbits w)

end Sys2Proof.Machine
end

