-- ==== Sys2Proof/Machine/HostProgram.lean ====
section
/-! DEFINITION. The host program syntax of `30_encoding.md` R116 and the method-call expansions of R117, as lists of
agenda entries. -/

namespace Sys2Proof.Machine

/-- The registers a host program names (`10_state.md` R40). -/
inductive Reg where
  | CMD
  | STATUS
  | CONFIG
  | ARG
  | RESULT
  | RAW0
  | RAW1
  | TS
  | BUDGET
  | BITTHR
  | SETTLE
  deriving DecidableEq, Repr

/-- The offset of a register (`10_state.md` R40). -/
def Reg.offset : Reg → Nat
  | .CMD => 0x00
  | .STATUS => 0x04
  | .CONFIG => 0x08
  | .ARG => 0x0C
  | .RESULT => 0x10
  | .RAW0 => 0x14
  | .RAW1 => 0x18
  | .TS => 0x1C
  | .BUDGET => 0x20
  | .BITTHR => 0x24
  | .SETTLE => 0x28

/-- `WR <REG>, <imm32>` (R116). -/
def wrReg (r : Reg) (w : Word) : Event := .host (.wr r.offset 4 w)

/-- `RD <REG>` (R116): the value is in `rdata` after it. -/
def rdReg (r : Reg) : Event := .host (.rd r.offset 4)

/-- `WAITIDLE` (R116). -/
def waitIdle : Event := .host .waitIdle

/-- A command mnemonic stands for `WR CMD` of its word (R116). -/
def command (i : Instr) : Event := wrReg .CMD (encode i)

/-- `begin()` (R117). -/
def callBegin : List Event := [command .beginCmd, waitIdle]

/-- `begin(settle)` (R117). -/
def callBeginSettle (settle : Word) : List Event := [wrReg .ARG settle, command .beginArg, waitIdle]

/-- `readHumidity(force)` (R117). -/
def callReadHumidity (force : Bool) : List Event :=
  [waitIdle, command (.readHum force), waitIdle, rdReg .RESULT]

/-- `readTemperature(useFahrenheit, force)` (R117). -/
def callReadTemperature (useFahrenheit force : Bool) : List Event :=
  [waitIdle, command (.readTemp force useFahrenheit), waitIdle, rdReg .RESULT]

/-- `convertCtoF(c)` (R117). -/
def callConvertCtoF (c : Word) : List Event :=
  [waitIdle, wrReg .ARG c, command .convertCToF, rdReg .RESULT]

end Sys2Proof.Machine
end

