-- ==== Sys2Proof/Machine/Platform.lean ====
section
/-! DEFINITION. Several blocks side by side (`60_exceptions.md` R260, R262): each has its own state, its own
`inst` and its own lists of answers, and no step of one touches another. -/

namespace Sys2Proof.Machine

/-- The blocks of a platform, one per line (R260). DESIGN CHOICE, unsafe (log 23): blocks whose `inst` is `none` all have
the parameters `Config.openParams`, `BASE` among them, and blocks whose lists of answers are empty all get the free
values `Config.freeLine` and `Config.freeClock` of their own sample and read numbers, so that two such lines, or clocks,
answer alike. R260 leaves open whether they do; a claim about several blocks gives each its own `inst`, `lineIn` and
`clockIn`. -/
abbrev Platform := List State

/-- One step of block `k`: no other block changes (R260); a block that is not there makes no step. -/
def Platform.stepBlock (bs : Platform) (k : Nat) : Host.Outcome Platform Fault Refusal :=
  match bs[k]? with
  | none => .next bs
  | some s =>
    match step s with
    | .next t => .next (bs.set k t)
    | .fault f => .fault f
    | .refused r => .refused r

/-- What the host combines: interrupts are to be suppressed while any one output is 1 (R262). -/
def Platform.irqSuppress (bs : Platform) : Bool := bs.any (fun s => s.irqSuppress)

end Sys2Proof.Machine
end

