-- ==== Sys2Proof/WellFormed.lean ====
section
/-! DEFINITION. Well-formedness. A command has no ill-formed operand: its operands are single bits, and "every 32-bit
value is a command word" (`30_encoding.md` R111, R114). What can be ill-formed is a host access: only a 32-bit access
at a multiple of 4 in the window is defined (`20_memory.md` R80, R81, R82). -/

namespace Sys2Proof

/-- Every command is well formed (`30_encoding.md` R111, R114: reserved bits never make a word illegal). -/
def Instr.wf : Instr → Bool
  | .nop | .beginCmd | .beginArg | .readHum _ | .readTemp _ _ | .convertCToF | .reserved6 | .reserved7 | .reserved8
  | .reserved9 | .reservedA | .reservedB | .reservedC | .reservedD | .reservedE | .reservedF => true

namespace Machine

/-- The access lies in the window (`20_memory.md` R82). -/
def offsetInWindow (off : Int) : Bool := decide (0 ≤ off) && decide (off < 0x40)

/-- The access is 32 bits wide (`20_memory.md` R81). -/
def widthDefined (width : Nat) : Bool := width == 4

/-- The access is at a multiple of 4 (`20_memory.md` R81). -/
def offsetAligned (off : Int) : Bool := off % 4 == 0

/-- A host move the block defines (`20_memory.md` R80). -/
def HostOp.wf : HostOp → Bool
  | .rd off width => offsetInWindow off && widthDefined width && offsetAligned off
  | .wr off width _ => offsetInWindow off && widthDefined width && offsetAligned off
  | .waitIdle => true

/-- An agenda entry the model has a step for. -/
def Event.wf : Event → Bool
  | .host op => op.wf
  | .seqMove => true
  | .rst => true

end Machine
end Sys2Proof
end

