-- ==== Sys2Proof/Safety.lean ====
section
/-! DEFINITION. The terms claims are stated in: the invariant of the block, the bounds of `40_init.md` R140 and
`41_refresh.md` R168, the draws of a pulse and of a frame (`30_encoding.md` R100, R102), what binary32 can
represent, and the host's duties as far as they can be said of the agenda. -/

namespace Sys2Proof.Machine

/-- The next step is the sequencer's: the agenda names it, or names nobody. -/
def sequencerMoves (s : State) : Prop := s.agenda = [] ∨ s.agenda.head? = some .seqMove

/-- The micro-operations between `GuardEnter()` and `GuardExit()` (`43_guard.md` R233): the samples of B_REF and
R_MEAS, and the step that leaves the guarded interval. -/
def guarded : Seq → Bool
  | .idle => false
  | .run p =>
    match p with
    | .bRef => true
    | .bEnd _ => true
    | .rMeas _ => true
    | .rGuardExit => true
    | .rAbort .timeout => true
    | .rAbort .checksumMismatch => false
    | .bHigh | .bHighWait | .bWake | .bWakeWait | .bSettle | .bSettleWait | .bRefEnter => false
    | .rCheck | .rWake | .rWakeWait | .rSettle | .rSettleWait | .rMeasEnter | .rValidate | .rCommit | .rDecode => false

/-- The line port's mode before each micro-operation (`40_init.md` R136, `41_refresh.md` R151, R167). -/
def pinModeAt : Seq → PinMode
  | .idle => .inPullup
  | .run p =>
    match p with
    | .bHighWait | .bWake => .outHigh
    | .bWakeWait | .bSettle | .rWakeWait | .rSettle => .outLow
    | .bHigh | .bSettleWait | .bRefEnter | .bRef | .bEnd _ => .inPullup
    | .rCheck | .rWake | .rSettleWait | .rMeasEnter | .rMeas _ | .rGuardExit | .rValidate | .rCommit | .rAbort _
    | .rDecode => .inPullup

/-- The phase belongs to BEGIN or BEGIN_ARG (`10_state.md` R35). -/
def Phase.ofBegin : Phase → Bool
  | .bHigh | .bHighWait | .bWake | .bWakeWait | .bSettle | .bSettleWait | .bRefEnter | .bRef | .bEnd _ => true
  | .rCheck | .rWake | .rWakeWait | .rSettle | .rSettleWait | .rMeasEnter | .rMeas _ | .rGuardExit | .rValidate
  | .rCommit | .rAbort _ | .rDecode => false

/-- A BEGIN or BEGIN_ARG is running. -/
def beginRuns : Seq → Bool
  | .idle => false
  | .run p => p.ofBegin

/-- A READ_HUM or READ_TEMP is running. -/
def accessorRuns : Seq → Bool
  | .idle => false
  | .run p => !p.ofBegin

/-- `cnt` is at most the bound of the measurement that runs (`41_refresh.md` R161 (e)), and an observed calibration
count at most `BUDGET_DEFAULT`. -/
def countBounded (s : State) : Prop :=
  match s.seq with
  | .run .bRef => s.cnt.toNat ≤ s.params.budgetDefault.toNat
  | .run (.bEnd (.value n)) => n.toNat ≤ s.params.budgetDefault.toNat
  | .run (.rMeas _) => s.cnt.toNat ≤ s.budget.toNat
  | _ => True

/-- While a data bit's pulse is measured, `bitk` is that bit's index (`10_state.md` R56, `30_encoding.md` R100). -/
def bitIndexed (s : State) : Prop :=
  match s.seq with
  | .run (.rMeas j) => 2 ≤ j.val → s.bitk.val = (j.val - 2) / 2
  | _ => True

/-- The invariant of the block: what the rules say of every reachable state. -/
structure Inv (s : State) : Prop where
  /-- `BUSY = 1` exactly while a command runs (`10_state.md` R34). -/
  busy_iff_running : s.busy = true ↔ s.seq ≠ .idle
  /-- `GUARD = 1` exactly while sampling (`43_guard.md` R233). -/
  guard_while_sampling : s.guardActive = guarded s.seq
  /-- The line port's mode is that of the phase, and IN_PULLUP in IDLE (`41_refresh.md` R167, `10_state.md` R32). -/
  pin_of_phase : s.pinMode = pinModeAt s.seq
  /-- The running command is the latched one (`10_state.md` R34). -/
  begin_op : beginRuns s.seq = true → s.op = 0x1#4 ∨ s.op = 0x2#4
  accessor_op : accessorRuns s.seq = true → s.op = 0x3#4 ∨ s.op = 0x4#4
  /-- An accessor runs only after BEGIN (`42_accessors.md` R198). -/
  accessor_init : accessorRuns s.seq = true → s.init = true
  /-- The discriminator is the supported one from an accepted BEGIN on (`40_init.md` R133, `10_state.md` R43). -/
  begin_type : beginRuns s.seq = true → s.configType = 0x00#8
  init_type : s.init = true → s.configType = 0x00#8
  /-- No cache before BEGIN (`40_init.md` R135). -/
  valid_init : s.valid = true → s.init = true
  /-- A valid cache satisfies the checksum (`41_refresh.md` R169 (d)). -/
  valid_checksum : s.valid = true → s.cache.checksumOk = true
  /-- Only a sample that satisfies the checksum reaches the commit (`41_refresh.md` R165). -/
  commit_checksum : s.seq = .run .rCommit → s.stage.checksumOk = true
  /-- The counter keeps its bound (`41_refresh.md` R161 (e)). -/
  count_bounded : countBounded s
  /-- `bitk` follows the pulse (`10_state.md` R56). -/
  bit_indexed : bitIndexed s

/-- The most line samples the running command can still take (`40_init.md` R140, `41_refresh.md` R168). -/
def samplesLeft (s : State) : Nat :=
  match s.seq with
  | .idle => 0
  | .run p =>
    match p with
    | .bHigh | .bHighWait | .bWake | .bWakeWait | .bSettle | .bSettleWait | .bRefEnter =>
      s.params.budgetDefault.toNat + 1
    | .bRef => s.params.budgetDefault.toNat - s.cnt.toNat + 1
    | .rCheck | .rWake | .rWakeWait | .rSettle | .rSettleWait | .rMeasEnter => 82 * (s.budget.toNat + 1)
    | .rMeas j => s.budget.toNat - s.cnt.toNat + 1 + (81 - j.val) * (s.budget.toNat + 1)
    | .bEnd _ | .rGuardExit | .rValidate | .rCommit | .rAbort _ | .rDecode => 0

/-- The most micro-operations other than a sample that the running command can still take. -/
def otherStepsLeft : Seq → Nat
  | .idle => 0
  | .run p =>
    match p with
    | .bHigh => 8
    | .bHighWait => 7
    | .bWake => 6
    | .bWakeWait => 5
    | .bSettle => 4
    | .bSettleWait => 3
    | .bRefEnter => 2
    | .bRef => 1
    | .bEnd _ => 1
    | .rCheck => 10
    | .rWake => 9
    | .rWakeWait => 8
    | .rSettle => 7
    | .rSettleWait => 6
    | .rMeasEnter => 5
    | .rMeas _ => 4
    | .rGuardExit => 4
    | .rValidate => 3
    | .rCommit => 2
    | .rAbort _ => 2
    | .rDecode => 1

/-- The most sequencer steps the running command can still take (`70_reset_and_hazards.md` R302). -/
def stepsLeft (s : State) : Nat := samplesLeft s + otherStepsLeft s.seq

/-- The draws of a pulse of `n` samples at level `lvl`, with the sample that ends it (`41_refresh.md` R161 (b)). -/
def pulse (lvl : Bool) (n : Nat) : List Bool := List.replicate n lvl ++ [!lvl]

/-- The draws of consecutive pulses of a frame, the first of them pulse `j` (`30_encoding.md` R100). -/
def pulsesFrom (j : Nat) : List Nat → List Bool
  | [] => []
  | n :: ns => pulse (pulseLevel j) n ++ pulsesFrom (j + 1) ns

/-- Data bit `k` of a frame with these pulse counts: its high pulse is pulse `3 + 2k`, and the bit is 1 when that
count exceeds the threshold (`30_encoding.md` R100, R101). -/
def frameBit (thr : Word) (counts : List Nat) (k : Nat) : Bool := decide (thr.toNat < counts.getD (3 + 2 * k) 0)

/-- Byte `i` of a frame: data bit `k` is bit `7 - (k mod 8)` of byte `floor(k / 8)` (`30_encoding.md` R102). -/
def frameByte (thr : Word) (counts : List Nat) (i : Nat) : Byte :=
  BitVec.ofNat 8 (((List.range 8).map fun m => (frameBit thr counts (8 * i + m)).toNat * 2 ^ (7 - m)).sum)

/-- The five bytes of a frame (`30_encoding.md` R102). -/
def frameSample (thr : Word) (counts : List Nat) : Sample where
  b0 := frameByte thr counts 0
  b1 := frameByte thr counts 1
  b2 := frameByte thr counts 2
  b3 := frameByte thr counts 3
  b4 := frameByte thr counts 4

/-- A magnitude of `n` units of 2^-149 has at most 24 significant bits, so binary32 holds it where it is below
2^128 (`00_scope.md` R14). -/
def Representable (n : Nat) : Prop := ∃ m e : Nat, m < 2 ^ 24 ∧ n = m * 2 ^ e

/-- The block with the parameter `GUARD_EN` set to `b` (`43_guard.md` R236). -/
def withGuardEn (b : Bool) (s : State) : State := { s with inst := some { s.params with guardEn := b } }

/-- An outcome with a function applied to its next state. -/
def mapNext (f : State → State) : Host.Outcome State Fault Refusal → Host.Outcome State Fault Refusal
  | .next t => .next (f t)
  | .fault r => .fault r
  | .refused r => .refused r

/-- The offsets a host writes to some effect: CMD, CONFIG and ARG (`20_memory.md` R87). -/
def writableOffset (off : Nat) : Bool := off == 0x00 || off == 0x08 || off == 0x0C

/-- The reserved opcodes' commands (`42_accessors.md` R201). -/
def reservedCommands : List Instr :=
  [.reserved6, .reserved7, .reserved8, .reserved9, .reservedA, .reservedB, .reservedC, .reservedD, .reservedE,
    .reservedF]

/-- A host that waits before each command write keeps R290's duty: the step presents no command word to a busy
block. Whether the host has read BUSY = 0 before is not in the state and is not asked (log 24). -/
def keepsBusyDuty (s : State) : Prop :=
  match s.agenda with
  | .host (.wr off _ _) :: _ => off = 0 → s.busy = false
  | _ => True

/-- A host keeps R291's duty: it reads RESULT, RAW0, RAW1 and TS only of an idle block. R291 names the STATUS result
fields too. DESIGN CHOICE, unsafe (log 24): no read of STATUS counts as a breach, since one access reads those fields
together with the BUSY that WAITIDLE polls of a busy block (`30_encoding.md` R116), and which of them the host then uses
is no part of the access. -/
def keepsReadDuty (s : State) : Prop :=
  match s.agenda with
  | .host (.rd off _) :: _ => off = 0x10 ∨ off = 0x14 ∨ off = 0x18 ∨ off = 0x1C → s.busy = false
  | _ => True

/-- A step that neither stops the machine nor breaks a duty of `70_reset_and_hazards.md` R290 and R291. -/
def SafeStep (s : State) : Prop := keepsBusyDuty s ∧ keepsReadDuty s ∧ ∃ t, step s = .next t

end Sys2Proof.Machine
end

