-- ==== Sys2Proof/Certificates/Slice0/Obligations.lean ====
section
/-! DEFINITION. The statements for the provers. Each docstring names the rules of spec/ the statement formalises. -/

open Sys2Proof Sys2Proof.Machine

/-! ### Encoding -/

/-- Words written out from `30_encoding.md` R110 and R116 decode to their commands (a sanity statement). -/
def Obligations.SpecWordsDecodeToTheirCommands : Prop :=
  decodeWord 0x00000000#32 = .nop ∧ decodeWord 0x00000001#32 = .beginCmd ∧ decodeWord 0x00000002#32 = .beginArg ∧
  decodeWord 0x00000013#32 = .readHum true ∧ decodeWord 0x00000023#32 = .readHum false ∧
  decodeWord 0x00000034#32 = .readTemp true true ∧ decodeWord 0xFFFFFFC4#32 = .readTemp false false ∧
  decodeWord 0x000000F5#32 = .convertCToF ∧ decodeWord 0x00000036#32 = .reserved6 ∧
  decodeWord 0x0000000F#32 = .reservedF

/-- A word decodes to a command exactly when it agrees with the command's encoding in every bit the command uses:
the round trip, no bit of a used field dropped, every ignored bit ignored (`30_encoding.md` R110, R111, R115). -/
def Obligations.DecodeIffUsedBitsAgree : Prop :=
  ∀ (i : Instr) (w : Word), decodeWord w = i ↔ w &&& usedMask i = encode i

/-- Decode of encode is the command, at word level and at byte level in little-endian order with the rest of the list
left over; a list shorter than the one command format is rejected (`30_encoding.md` R115, `20_memory.md` R83). -/
def Obligations.BytesDecodeAsTheirWord : Prop :=
  (∀ (i : Instr) (rest : List Byte), decodeBytes (bytesOfWord (encode i) ++ rest) = .ok (i, rest)) ∧
  (∀ (w : Word) (rest : List Byte), decodeBytes (bytesOfWord w ++ rest) = .ok (decodeWord w, rest)) ∧
  (∀ bs : List Byte, bs.length < 4 → decodeBytes bs = .error .truncated)

/-! ### The step, acceptance and host accesses -/

/-- A command word written to CMD of a block that is not busy runs as its decoded command, on the state whose agenda
goes on with the rest and whose latches hold the word's fields (`10_state.md` R34, R41, R56). -/
def Obligations.StepRunsTheDecodedCommand : Prop :=
  ∀ (s : State) (w : Word) (rest : List Event), s.agenda = cmdWrite w :: rest → s.busy = false →
    step s = exec (decodeWord w)
      { s with agenda := rest, op := opField w, force := forceField w, fahr := fahrField w }

/-- A command written while BUSY = 1 is lost: no state changes but the write having been made
(`70_reset_and_hazards.md` R290). -/
def Obligations.CommandWhileBusyIsLost : Prop :=
  ∀ (s : State) (w : Word) (rest : List Event), s.agenda = cmdWrite w :: rest → s.busy = true →
    step s = .next { s with agenda := rest }

/-- A host read of a defined register answers with the register on the bus port and changes nothing else
(`20_memory.md` R85, R87); and the register map: CMD reads 0, STATUS its word, the 8-bit and 16-bit fields of CONFIG,
RAW1 and SETTLE read with 0 above them, and reserved offsets read 0 (`10_state.md` R40, R41, R43, R44, R46 to R53).
That the data stands in a field of its own is the model's choice, log 11. -/
def Obligations.HostReadHasNoSideEffect : Prop :=
  (∀ (s : State) (k : Nat) (rest : List Event), k < 16 → s.agenda = .host (.rd (4 * k : Nat) 4) :: rest →
    step s = .next { s with agenda := rest, rdata := readReg s (4 * k) }) ∧
  (∀ s : State,
    readReg s 0x00 = 0#32 ∧ readReg s 0x04 = statusWord s ∧ (readReg s 0x08).toNat = s.configType.toNat ∧
    readReg s 0x0C = s.arg ∧ readReg s 0x10 = s.result ∧ readReg s 0x14 = s.raw0 ∧
    (readReg s 0x18).toNat = s.raw1.toNat ∧ readReg s 0x1C = s.ts ∧ readReg s 0x20 = s.budget ∧
    readReg s 0x24 = s.bitthr ∧ (readReg s 0x28).toNat = s.settle.toNat ∧
    ∀ k, 11 ≤ k → k < 16 → readReg s (4 * k) = 0#32)

/-- A host access has a step exactly when it is a defined one (`20_memory.md` R80, R81). That an undefined access in the
window is the fault `badAccess`, and one outside the window, of which R82 says only that it is the platform's, the
refusal `outsideWindow`, is the model's reading, log 13. -/
def Obligations.OnlyDefinedAccessesHaveAStep : Prop :=
  ∀ (s : State) (op : HostOp) (rest : List Event), s.agenda = .host op :: rest →
    (op.wf = true ↔ ∃ t, step s = .next t) ∧
    (∀ off width w, (op = .rd off width ∨ op = .wr off width w) →
      (offsetInWindow off = false → step s = .refused .outsideWindow) ∧
      (offsetInWindow off = true → (widthDefined width && offsetAligned off) = false → step s = .fault .badAccess))

/-- Writes to read-only registers and reserved offsets are ignored, and reserved offsets read 0 (`10_state.md` R53). -/
def Obligations.ReadOnlyOffsetsIgnoreWrites : Prop :=
  (∀ (s : State) (k : Nat) (w : Word) (rest : List Event), k < 16 → writableOffset (4 * k) = false →
    s.agenda = .host (.wr (4 * k : Nat) 4 w) :: rest → step s = .next { s with agenda := rest }) ∧
  (∀ (s : State) (k : Nat), 11 ≤ k → k < 16 → readReg s (4 * k) = 0#32)

/-- CONFIG: a write sets TYPE only while INIT = 0 and BUSY = 0 and is ignored otherwise; TYPE reads back with
CONFIG[31:8] = 0 (`10_state.md` R43). -/
def Obligations.ConfigWritableOnlyBeforeBegin : Prop :=
  (∀ (s : State) (w : Word) (rest : List Event), s.agenda = .host (.wr 0x08 4 w) :: rest →
    (s.init = false ∧ s.busy = false → step s = .next { s with agenda := rest, configType := w.extractLsb' 0 8 }) ∧
    (s.init = true ∨ s.busy = true → step s = .next { s with agenda := rest })) ∧
  (∀ s : State, (readReg s 0x08).toNat = s.configType.toNat)

/-- ARG is writable and readable at any time, busy or not, all 32 bits (`10_state.md` R44). -/
def Obligations.ArgWritableAtAnyTime : Prop :=
  ∀ (s : State) (w : Word) (rest : List Event), s.agenda = .host (.wr 0x0C 4 w) :: rest →
    step s = .next { s with agenda := rest, arg := w } ∧ readReg { s with agenda := rest, arg := w } 0x0C = w

/-- The places of the STATUS fields, every other bit 0, the OUTCOME codes 0 to 3 and the ERR codes 0 to 5; codes 6 to 15
are never produced (`10_state.md` R42, `60_exceptions.md` R241). -/
def Obligations.StatusFieldPlaces : Prop :=
  (RefreshOutcome.none.bits = 0#2 ∧ RefreshOutcome.skipped.bits = 1#2 ∧ RefreshOutcome.fresh.bits = 2#2 ∧
    RefreshOutcome.failed.bits = 3#2) ∧
  (ErrCode.none.bits = 0#4 ∧ ErrCode.timeout.bits = 1#4 ∧ ErrCode.checksum.bits = 2#4 ∧ ErrCode.notInit.bits = 3#4 ∧
    ErrCode.badCmd.bits = 4#4 ∧ ErrCode.badConfig.bits = 5#4) ∧
  (∀ s : State, ((statusWord s).extractLsb' 12 4).toNat ≤ 5) ∧
  ∀ s : State,
    (statusWord s).getLsbD 0 = s.busy ∧ (statusWord s).getLsbD 1 = s.init ∧ (statusWord s).getLsbD 2 = s.valid ∧
    (statusWord s).getLsbD 3 = s.guardActive ∧ (statusWord s).getLsbD 4 = s.caldef ∧
    (statusWord s).getLsbD 5 = s.nodata ∧ (statusWord s).extractLsb' 6 2 = 0#2 ∧
    (statusWord s).extractLsb' 8 2 = s.outcome.bits ∧ (statusWord s).extractLsb' 10 2 = 0#2 ∧
    (statusWord s).extractLsb' 12 4 = s.err.bits ∧ (statusWord s).extractLsb' 16 16 = 0#16

/-- RAW0 and RAW1 hold the five bytes of a sample at the places of `10_state.md` R47 and R48, and byte `i` of a
register is `reg[8i+7:8i]` (`20_memory.md` R83). -/
def Obligations.CacheBytesAtTheirPlaces : Prop :=
  ∀ (s : State) (x : Sample), s.raw0 = x.raw0 → s.raw1 = x.b4 →
    s.cache = x ∧ (readReg s 0x18).toNat = x.b4.toNat ∧
    windowByte s 0x14 = x.b0 ∧ windowByte s 0x15 = x.b1 ∧ windowByte s 0x16 = x.b2 ∧ windowByte s 0x17 = x.b3 ∧
    windowByte s 0x18 = x.b4

/-- One turn of WAITIDLE reads STATUS; it is over when BUSY reads 0, and goes round again when it reads 1
(`30_encoding.md` R116). That one sequencer move stands between two polls is the model's choice, log 10. -/
def Obligations.WaitIdlePollsBusy : Prop :=
  ∀ (s : State) (rest : List Event), s.agenda = .host .waitIdle :: rest →
    (s.busy = false → step s = .next { s with agenda := rest, rdata := statusWord s }) ∧
    (s.busy = true →
      step s = .next { s with agenda := .seqMove :: .host .waitIdle :: rest, rdata := statusWord s })

/-- A move of the sequencer leaves an idle block as it is: after reset it waits for a host command
(`70_reset_and_hazards.md` R280, `60_exceptions.md` R266; that an empty agenda is the sequencer's turn is the
model's choice, log 5). -/
def Obligations.IdleBlockWaits : Prop :=
  ∀ s : State, sequencerMoves s → s.seq = .idle → step s = .next { s with agenda := s.agenda.tail }

/-! ### Reset -/

/-- A step in which `rst` is asserted puts every piece of the block's state at the value of `10_state.md` R65, a
running command abandoned (`70_reset_and_hazards.md` R280, R281). That the parameters, the agenda, the pending answers,
the counters and the bus data stay is the model's choice, logs 19, 11 and 12. -/
def Obligations.ResetStepRestoresTheTable : Prop :=
  ∀ (s : State) (rest : List Event), s.agenda = .rst :: rest →
    step s = .next
      { configType := 0x00#8, arg := 0#32, result := 0x7FC00000#32, raw0 := 0#32, raw1 := 0#8, ts := 0#32,
        budget := 0#32, bitthr := 0#32, settle := 0#16, busy := false, init := false, valid := false,
        guardActive := false, caldef := false, nodata := false, outcome := .none, err := .none, seq := .idle,
        op := 0#4, force := false, fahr := false, cnt := 0#32, bitk := 0, hcnt := 0#32,
        stage := { b0 := 0#8, b1 := 0#8, b2 := 0#8, b3 := 0#8, b4 := 0#8 }, pinMode := .inPullup,
        inst := s.inst, agenda := rest, lineIn := s.lineIn, clockIn := s.clockIn, lineTaken := s.lineTaken,
        clockTaken := s.clockTaken, waitedUs := s.waitedUs, rdata := s.rdata }

/-- After reset STATUS reads 0 and no interrupt suppression is requested, whatever the parameters
(`70_reset_and_hazards.md` R282). -/
def Obligations.ResetReportsZeroStatus : Prop :=
  readReg State.reset 0x04 = 0x00000000#32 ∧ State.reset.irqSuppress = false ∧
  ∀ s : State, readReg (resetBlock s) 0x04 = 0x00000000#32 ∧ (resetBlock s).irqSuppress = false

/-! ### The commands: what each does in the step that accepts it, and what it leaves alone -/

/-- NOP: atomic, no state changes; a NOP word written to CMD leaves every register as it reads
(`42_accessors.md` R200). -/
def Obligations.NopChangesNoState : Prop :=
  (∀ s : State, exec .nop s = .next s) ∧
  (∀ (s : State) (w : Word) (rest : List Event), opField w = 0x0#4 → s.agenda = cmdWrite w :: rest →
    s.busy = false → ∃ t, step s = .next t ∧ ∀ off, readReg t off = readReg s off)

/-- Each reserved opcode, in every word that has it, sets ERR to BAD_CMD and changes nothing else
(`42_accessors.md` R201). -/
def Obligations.ReservedOpcodesOnlySetBadCmd : Prop :=
  (∀ i ∈ reservedCommands, ∀ s : State, exec i s = .next { s with err := .badCmd }) ∧
  (∀ (w : Word) (s : State), 6 ≤ (opField w).toNat → exec (decodeWord w) s = .next { s with err := .badCmd })

/-- CONVERT_C_TO_F writes RESULT and ERR and nothing else, whatever INIT, CONFIG and the ReadCache are
(`42_accessors.md` R199). That its `Complete()` changes nothing at acceptance, so that BUSY and the sequencer stay as
they are, is the model's reading, log 16. -/
def Obligations.ConvertWritesResultAndErr : Prop :=
  ∀ s : State, exec .convertCToF s = .next { s with result := ctof s.arg, err := .none }

/-- READ_HUM and READ_TEMP accepted while INIT = 0: NAN32, NODATA, NOT_INIT and nothing else (`42_accessors.md`
R198). -/
def Obligations.AccessorBeforeBeginIsNotInit : Prop :=
  ∀ (s : State) (force fahr : Bool), s.init = false →
    exec (.readHum force) s = .next { s with result := 0x7FC00000#32, nodata := true, err := .notInit } ∧
    exec (.readTemp force fahr) s = .next { s with result := 0x7FC00000#32, nodata := true, err := .notInit }

/-- BEGIN and BEGIN_ARG with a reserved CONFIG.TYPE: BAD_CONFIG and nothing else (`40_init.md` R133). -/
def Obligations.BeginRefusesReservedType : Prop :=
  ∀ s : State, s.configType ≠ 0x00#8 →
    exec .beginCmd s = .next { s with err := .badConfig } ∧ exec .beginArg s = .next { s with err := .badConfig }

/-- The acceptance step of BEGIN and BEGIN_ARG with the supported TYPE: BUSY, the settle time, the first phase, and
nothing else (`40_init.md` R131, R132, R136; `10_state.md` R34). -/
def Obligations.BeginIsAcceptedAndStarts : Prop :=
  ∀ s : State, s.configType = 0x00#8 →
    exec .beginCmd s = .next
      { s with op := 0x1#4, busy := true, settle := s.params.settleDefaultUs, seq := .run .bHigh } ∧
    exec .beginArg s = .next
      { s with op := 0x2#4, busy := true, settle := s.arg.extractLsb' 0 16, seq := .run .bHigh }

/-- The acceptance step of READ_HUM and READ_TEMP with INIT = 1: BUSY, the latched operands, R_CHECK, and nothing
else (`41_refresh.md` R150; `42_accessors.md` R190, R195; `10_state.md` R34). -/
def Obligations.AccessorIsAcceptedAndStarts : Prop :=
  ∀ (s : State) (force fahr : Bool), s.init = true →
    exec (.readHum force) s = .next { s with op := 0x3#4, force := force, busy := true, seq := .run .rCheck } ∧
    exec (.readTemp force fahr) s = .next
      { s with op := 0x4#4, force := force, fahr := fahr, busy := true, seq := .run .rCheck }

/-! ### BEGIN run to its end -/

/-- BEGIN and BEGIN_ARG run to completion over a reference pulse of `n` low samples, at most BUDGET_DEFAULT: after
`n + 1` samples and three waits the budget and threshold are those of the count (the defaults for `n = 0`), the cache
is initialised, and every other register is as before: RESULT, ARG and CONFIG among them (`40_init.md` R134 to R139).
The run is one with no host access between; the exact number of steps is the model's granularity, log 7, and the dead
value of `cnt` is log 17. -/
def Obligations.BeginCalibratesOnTheReferencePulse : Prop :=
  ∀ (s : State) (n : Nat) (rest : List Bool), s.agenda = [] → s.configType = 0x00#8 →
    n ≤ s.params.budgetDefault.toNat → s.lineIn = pulse false n ++ rest →
    ∀ (i : Instr) (opc : BitVec 4) (settle : Half),
      (i = .beginCmd ∧ opc = 0x1#4 ∧ settle = s.params.settleDefaultUs) ∨
      (i = .beginArg ∧ opc = 0x2#4 ∧ settle = s.arg.extractLsb' 0 16) →
    ∃ a, exec i s = .next a ∧ core.run (n + 9) a = .next
      { s with
        op := opc, settle := settle, busy := false, seq := .idle, guardActive := false, pinMode := .inPullup,
        budget := if n = 0 then s.params.budgetDefault else budgetOf s.params (BitVec.ofNat 32 n),
        bitthr := if n = 0 then s.params.thrDefault else thresholdOf s.params (BitVec.ofNat 32 n),
        caldef := decide (n = 0), raw0 := 0#32, raw1 := 0#8, ts := 0#32, valid := false, outcome := .none,
        nodata := false, init := true, err := .none, cnt := BitVec.ofNat 32 n, lineIn := rest,
        lineTaken := s.lineTaken + (n + 1),
        waitedUs := s.waitedUs + s.params.tIdleUs.toNat + s.params.tWakeUs.toNat + settle.toNat }

/-- BEGIN and BEGIN_ARG on a line stuck low time out after BUDGET_DEFAULT + 1 samples and use the defaults
(`40_init.md` R134, R137 (b)). The run is one with no host access between; the exact number of steps is the model's
granularity, log 7, and the dead value of `cnt` is log 17. -/
def Obligations.BeginFallsBackOnAStuckLine : Prop :=
  ∀ (s : State) (rest : List Bool), s.agenda = [] → s.configType = 0x00#8 →
    s.lineIn = List.replicate (s.params.budgetDefault.toNat + 1) false ++ rest →
    ∀ (i : Instr) (opc : BitVec 4) (settle : Half),
      (i = .beginCmd ∧ opc = 0x1#4 ∧ settle = s.params.settleDefaultUs) ∨
      (i = .beginArg ∧ opc = 0x2#4 ∧ settle = s.arg.extractLsb' 0 16) →
    ∃ a, exec i s = .next a ∧ core.run (s.params.budgetDefault.toNat + 9) a = .next
      { s with
        op := opc, settle := settle, busy := false, seq := .idle, guardActive := false, pinMode := .inPullup,
        budget := s.params.budgetDefault, bitthr := s.params.thrDefault, caldef := true, raw0 := 0#32, raw1 := 0#8,
        ts := 0#32, valid := false, outcome := .none, nodata := false, init := true, err := .none,
        cnt := s.params.budgetDefault, lineIn := rest, lineTaken := s.lineTaken + (s.params.budgetDefault.toNat + 1),
        waitedUs := s.waitedUs + s.params.tIdleUs.toNat + s.params.tWakeUs.toNat + settle.toNat }

/-- The calibration functions: the exact product, divided rounding toward zero, saturated at 2^32 - 1 (`00_scope.md`
R9). -/
def Obligations.CalibrationFormula : Prop :=
  ∀ (p : Params) (n : Word), p.wf = true →
    (budgetOf p n).toNat = min (2 ^ 32 - 1) (n.toNat * p.budgetMarginUs.toNat / p.tRefUs.toNat) ∧
    (thresholdOf p n).toNat = min (2 ^ 32 - 1) (n.toNat * p.tBitThrUs.toNat / p.tRefUs.toNat)

/-! ### Measurement, classification and assembly -/

/-- MEASURE in a wire cycle: `n` samples at the level, at most BUDGET, and one other sample give the count `n` after
`n + 1` samples; BUDGET + 1 samples at the level time out after exactly so many, whatever follows; the count never
exceeds the bound, and counting one more sample never wraps (`41_refresh.md` R161). That the pulse's end, its
classification and the start of the next measurement fall in the step of the last sample is the model's choice, log 7;
that a timeout leaves the abort path to the next step, the guard still active, is log 8. -/
def Obligations.MeasureCountsAPulse : Prop :=
  (∀ (s : State) (j : Fin 82) (n : Nat) (rest : List Bool), s.agenda = [] → s.seq = .run (.rMeas j) →
    s.cnt = 0#32 → n ≤ s.budget.toNat → s.lineIn = pulse (pulseLevel j.val) n ++ rest →
    core.run (n + 1) s = .next (pulseDone j (BitVec.ofNat 32 n)
      { s with cnt := BitVec.ofNat 32 n, lineIn := rest, lineTaken := s.lineTaken + (n + 1) })) ∧
  (∀ (s : State) (j : Fin 82) (rest : List Bool), s.agenda = [] → s.seq = .run (.rMeas j) →
    s.cnt = 0#32 → s.lineIn = List.replicate (s.budget.toNat + 1) (pulseLevel j.val) ++ rest →
    core.run (s.budget.toNat + 1) s = .next
      { s with cnt := s.budget, lineIn := rest, lineTaken := s.lineTaken + (s.budget.toNat + 1),
               seq := .run (.rAbort .timeout) }) ∧
  (∀ (s : State) (lvl : Bool) (bound : Word), s.cnt.toNat ≤ bound.toNat →
    (measureSample lvl bound s).2.cnt.toNat ≤ bound.toNat ∧
    ((measureSample lvl bound s).1 = none → (measureSample lvl bound s).2.cnt.toNat = s.cnt.toNat + 1))

/-- CLASSIFY: 1 exactly when the count exceeds the threshold, both read unsigned; only the high-pulse count enters
(`41_refresh.md` R162). -/
def Obligations.ClassifyIsStrictlyAbove : Prop :=
  ∀ (n : Word) (s : State),
    (storeBit n s).stage = s.stage.shiftIn (s.bitk.val / 8) (decide (s.bitthr.toNat < n.toNat))

/-- Eight data bits shifted into a byte stand MSB-first, whatever the byte held (`41_refresh.md` R163,
`30_encoding.md` R102). -/
def Obligations.EightBitsAssembleMsbFirst : Prop :=
  ∀ (x : Byte) (bs : List Bool), bs.length = 8 → ∀ m, m < 8 → (bs.foldl pushBit x).getLsbD (7 - m) = bs.getD m false

/-- The checksum law: byte 4 is the sum of the other four, truncated to 8 bits (`30_encoding.md` R103). -/
def Obligations.ChecksumIsTruncatedSum : Prop :=
  ∀ x : Sample, x.checksumOk = true ↔ x.b4 = x.b0 + x.b1 + x.b2 + x.b3

/-! ### Refresh -/

/-- The rate limit: at R_CHECK the clock is read once; with `force = 0`, a valid cache and less than 2000 ms modulo
2^32 since its timestamp, the refresh is skipped; otherwise, so always with `force = 1`, the wire cycle starts
(`41_refresh.md` R152, R153). -/
def Obligations.RateLimitSkipsTheWireCycle : Prop :=
  ∀ s : State, sequencerMoves s → s.seq = .run .rCheck →
    (s.force = false ∧ s.valid = true ∧ (s.clockWord.toNat + (2 ^ 32 - s.ts.toNat)) % 2 ^ 32 < 2000 →
      step s = .next
        { s with agenda := s.agenda.tail, clockIn := s.clockIn.tail, clockTaken := s.clockTaken + 1,
                 outcome := .skipped, err := .none, seq := .run .rDecode }) ∧
    (s.force = true ∨ s.valid = false ∨ 2000 ≤ (s.clockWord.toNat + (2 ^ 32 - s.ts.toNat)) % 2 ^ 32 →
      step s = .next
        { s with agenda := s.agenda.tail, clockIn := s.clockIn.tail, clockTaken := s.clockTaken + 1,
                 seq := .run .rWake })

/-- A refresh that is not skipped, over 82 pulses each at most BUDGET samples long whose five bytes satisfy the
checksum: every sample of the frame is taken and none after it, the bytes are those of `30_encoding.md` R102, and the
commit writes RAW0, RAW1, TS, VALID, OUTCOME and ERR (`41_refresh.md` R151, R155, R157, R163 to R167). The exact
number of steps is the model's granularity, log 7, and the values of `cnt`, `hcnt`, `bitk` and `stage` after the
commit are dead, log 17. -/
def Obligations.RefreshCommitsTheFrame : Prop :=
  ∀ (s : State) (counts : List Nat) (rest : List Bool), s.agenda = [] → s.seq = .run .rCheck →
    skips s.force s.valid s.clockWord s.ts = false → counts.length = 82 → (∀ c ∈ counts, c ≤ s.budget.toNat) →
    s.lineIn = pulsesFrom 0 counts ++ rest → (frameSample s.bitthr counts).checksumOk = true →
    core.run (counts.sum + 82 + 9) s = .next
      { s with
        seq := .run .rDecode, guardActive := false, pinMode := .inPullup,
        raw0 := (frameSample s.bitthr counts).raw0, raw1 := (frameSample s.bitthr counts).b4,
        ts := s.clockNext.clockWord, valid := true, outcome := .fresh, err := .none,
        stage := frameSample s.bitthr counts, cnt := BitVec.ofNat 32 (counts.getD 81 0),
        hcnt := BitVec.ofNat 32 (counts.getD 81 0), bitk := 39, lineIn := rest,
        lineTaken := s.lineTaken + (counts.sum + 82), clockIn := s.clockIn.tail.tail, clockTaken := s.clockTaken + 2,
        waitedUs := s.waitedUs + s.params.tWakeUs.toNat + s.settle.toNat }

/-- The same refresh when the five bytes break the checksum: OUTCOME = FAILED, ERR = CHECKSUM, and the ReadCache, with
TS and VALID, as before (`41_refresh.md` R165, R169 (b); `60_exceptions.md` R246). The exact number of steps is the
model's granularity, log 7, with the abort a step of its own, log 8, and the values of `cnt`, `hcnt`, `bitk` and
`stage` after the failure are dead, log 17. -/
def Obligations.RefreshRejectsABadChecksum : Prop :=
  ∀ (s : State) (counts : List Nat) (rest : List Bool), s.agenda = [] → s.seq = .run .rCheck →
    skips s.force s.valid s.clockWord s.ts = false → counts.length = 82 → (∀ c ∈ counts, c ≤ s.budget.toNat) →
    s.lineIn = pulsesFrom 0 counts ++ rest → (frameSample s.bitthr counts).checksumOk = false →
    core.run (counts.sum + 82 + 9) s = .next
      { s with
        seq := .run .rDecode, guardActive := false, pinMode := .inPullup, outcome := .failed, err := .checksum,
        stage := frameSample s.bitthr counts, cnt := BitVec.ofNat 32 (counts.getD 81 0),
        hcnt := BitVec.ofNat 32 (counts.getD 81 0), bitk := 39, lineIn := rest,
        lineTaken := s.lineTaken + (counts.sum + 82), clockIn := s.clockIn.tail, clockTaken := s.clockTaken + 1,
        waitedUs := s.waitedUs + s.params.tWakeUs.toNat + s.settle.toNat }

/-- The same refresh when any pulse, the one after `counts`, is longer than BUDGET: it ends at once with OUTCOME =
FAILED and ERR = TIMEOUT, no later sample is taken, and the ReadCache is as before; the staging buffer and the
internal counts are dead (`41_refresh.md` R158, R169 (b); `60_exceptions.md` R246). The exact number of steps is the
model's granularity, log 7, with the abort a step of its own, log 8, and the dead value of `cnt` is log 17. -/
def Obligations.RefreshTimesOutAtAnyPulse : Prop :=
  ∀ (s : State) (counts : List Nat) (rest : List Bool), s.agenda = [] → s.seq = .run .rCheck →
    skips s.force s.valid s.clockWord s.ts = false → counts.length < 82 → (∀ c ∈ counts, c ≤ s.budget.toNat) →
    s.lineIn =
      pulsesFrom 0 counts ++ (List.replicate (s.budget.toNat + 1) (pulseLevel counts.length) ++ rest) →
    ∃ (stage : Sample) (bitk : Fin 40) (hcnt : Word),
    core.run (counts.sum + counts.length + (s.budget.toNat + 1) + 7) s = .next
      { s with
        seq := .run .rDecode, guardActive := false, pinMode := .inPullup, outcome := .failed, err := .timeout,
        stage := stage, cnt := s.budget, hcnt := hcnt, bitk := bitk, lineIn := rest,
        lineTaken := s.lineTaken + (counts.sum + counts.length + (s.budget.toNat + 1)), clockIn := s.clockIn.tail,
        clockTaken := s.clockTaken + 1,
        waitedUs := s.waitedUs + s.params.tWakeUs.toNat + s.settle.toNat }

/-- The abort path takes one step: guard exit, OUTCOME = FAILED, ERR the cause's code, the decode step next, and
nothing else (`60_exceptions.md` R246; that this is the step after the one that raises is the model's choice, log 8). -/
def Obligations.AbortPathTakesOneStep : Prop :=
  ∀ s : State, sequencerMoves s →
    (s.seq = .run (.rAbort .timeout) →
      step s = .next
        { s with agenda := s.agenda.tail, guardActive := false, outcome := .failed, err := .timeout,
                 seq := .run .rDecode }) ∧
    (s.seq = .run (.rAbort .checksumMismatch) →
      step s = .next
        { s with agenda := s.agenda.tail, guardActive := false, outcome := .failed, err := .checksum,
                 seq := .run .rDecode })

/-! ### Accessors and numbers -/

/-- The decode step of READ_HUM and READ_TEMP writes RESULT and NODATA and completes: the decoded cache where it is
valid, and otherwise NAN32 with no conversion (`42_accessors.md` R190, R195). -/
def Obligations.DecodeStepWritesTheResult : Prop :=
  ∀ s : State, sequencerMoves s → s.seq = .run .rDecode →
    (s.op = 0x3#4 → step s = .next
      { s with agenda := s.agenda.tail, result := if s.valid then humOf s.cache else 0x7FC00000#32,
               nodata := !s.valid, busy := false, seq := .idle }) ∧
    (s.op = 0x4#4 → step s = .next
      { s with
        agenda := s.agenda.tail,
        result := if s.valid then (if s.fahr then ctof (tempCOf s.cache) else tempCOf s.cache) else 0x7FC00000#32,
        nodata := !s.valid, busy := false, seq := .idle })

/-- HUM is the humidity integer byte exactly: a non-negative finite binary32 value, and byte 1 does not enter
(`42_accessors.md` R191, R192). -/
def Obligations.HumidityIsTheExactByte : Prop :=
  (∀ x : Sample, f32Sign (humOf x) = false ∧ f32Expo (humOf x) ≠ 0xFF ∧
    f32Units (humOf x) = x.b0.toNat * 2 ^ 149) ∧
  (∀ (x : Sample) (b1 b2 b3 b4 : Byte), humOf { x with b1 := b1, b2 := b2, b3 := b3, b4 := b4 } = humOf x)

/-- TEMPC is sign and magnitude: bit 7 of byte 2 is the sign, bits 6:0 the magnitude, exactly; 0x80 is negative zero,
which CTOF maps to 32.0; no other byte enters (`42_accessors.md` R196, R197). -/
def Obligations.TemperatureIsSignAndMagnitude : Prop :=
  (∀ x : Sample, f32Sign (tempCOf x) = x.b2.getLsbD 7 ∧ f32Expo (tempCOf x) ≠ 0xFF ∧
    f32Units (tempCOf x) = x.b2.toNat % 128 * 2 ^ 149) ∧
  (∀ x : Sample, x.b2 = 0x80#8 → tempCOf x = 0x80000000#32 ∧ ctof (tempCOf x) = 0x42000000#32) ∧
  (∀ (x : Sample) (b0 b1 b3 b4 : Byte), tempCOf { x with b0 := b0, b1 := b1, b3 := b3, b4 := b4 } = tempCOf x)

/-- `roundUnits`, the magnitude that `rne` encodes, is rounded to nearest, ties to even: no magnitude of 24
significant bits is nearer to `num / den` units than the one chosen, and of two at the same distance the one chosen
has an even significand (`00_scope.md` R14). -/
def Obligations.RoundingIsNearestTiesToEven : Prop :=
  ∀ num den : Nat, 0 < den →
    Representable (roundUnits num den) ∧
    (∀ r, Representable r →
      ((roundUnits num den * den : Int) - num).natAbs ≤ ((r * den : Int) - num).natAbs) ∧
    (∀ r, Representable r → r ≠ roundUnits num den →
      ((roundUnits num den * den : Int) - num).natAbs = ((r * den : Int) - num).natAbs →
      roundUnits num den / f32Quantum num den % 2 = 0)

/-- The binary32 patterns: every magnitude of 24 significant bits below 2^128 has its pattern, exactly and with its
sign; every finite pattern is the one of its sign and magnitude; and a magnitude of 2^128 or more is the infinity of
its sign (`00_scope.md` R14). -/
def Obligations.PatternsHoldTheirValues : Prop :=
  (∀ (sign : Bool) (n : Nat), Representable n → n < f32Overflow →
    f32Units (f32Encode sign n) = n ∧ f32Sign (f32Encode sign n) = sign ∧ f32Expo (f32Encode sign n) ≠ 0xFF) ∧
  (∀ v : Word, f32Expo v ≠ 0xFF → f32Encode (f32Sign v) (f32Units v) = v) ∧
  (∀ (sign : Bool) (n : Nat), f32Overflow ≤ n →
    f32Encode sign n = if sign then 0xFF800000#32 else 0x7F800000#32)

/-- CTOF: a NaN gives NAN32, an infinity itself; a finite value is scaled by 9, then by 1/5, then 32 is added, each
result rounded by `rne`, an overflow of the first step staying an infinity (`42_accessors.md` R202). The sign of an
exact zero sum is a free value and nothing is said of it but that the sum is a zero (log 14). -/
def Obligations.CtofIsThreeRoundings : Prop :=
  (∀ c : Word, isNaN c = true → ctof c = 0x7FC00000#32) ∧
  (∀ c : Word, isInf c = true → ctof c = c) ∧
  (∀ c : Word, f32Expo c ≠ 0xFF → isInf (rne (f32Sign c) (f32Units c * 9) 1) = true →
    ctof c = rne (f32Sign c) (f32Units c * 9) 1) ∧
  (∀ c t1 t2 : Word, f32Expo c ≠ 0xFF → t1 = rne (f32Sign c) (f32Units c * 9) 1 → isInf t1 = false →
    t2 = rne (f32Sign t1) (f32Units t1) 5 →
    isInf t2 = false ∧
    (f32Int t2 + 32 * 2 ^ 149 = 0 → ctof c = 0x00000000#32 ∨ ctof c = 0x80000000#32) ∧
    (f32Int t2 + 32 * 2 ^ 149 ≠ 0 →
      ctof c = rne (decide (f32Int t2 + 32 * 2 ^ 149 < 0)) (f32Int t2 + 32 * 2 ^ 149).natAbs 1))

/-- The source's fixed points: 0 to 32, 100 to 212, -40 to -40 (`42_accessors.md` R203). -/
def Obligations.ConversionFixedPoints : Prop :=
  ctof 0x00000000#32 = 0x42000000#32 ∧ ctof 0x42C80000#32 = 0x43540000#32 ∧ ctof 0xC2200000#32 = 0xC2200000#32

/-- For the cache [0x32, 0x00, 0x1B, 0x00, 0x4D] READ_HUM gives 50.0 and READ_TEMP with `fahr = 0` gives 27.0
(`42_accessors.md` R205). -/
def Obligations.WorkedExampleDecodes : Prop :=
  ∀ s : State, sequencerMoves s → s.seq = .run .rDecode → s.valid = true → s.raw0 = 0x001B0032#32 → s.raw1 = 0x4D#8 →
    (s.op = 0x3#4 → ∃ t, step s = .next t ∧ t.result = 0x42480000#32) ∧
    (s.op = 0x4#4 → s.fahr = false → ∃ t, step s = .next t ∧ t.result = 0x41D80000#32)

/-! ### The whole machine -/

/-- The invariant holds after reset. -/
def Obligations.ResetMeetsTheInvariant : Prop := Inv State.reset

/-- Every step keeps the invariant: BUSY exactly while a command runs, GUARD exactly while sampling, the line port as
the phase says, the latched opcode that of the running command, accessors only after BEGIN, a valid cache with a good
checksum, the counter within its bound (`10_state.md` R34, R43, R56; `43_guard.md` R233; `41_refresh.md` R161, R167,
R169). -/
def Obligations.EveryStepKeepsTheInvariant : Prop :=
  ∀ s t : State, Inv s → step s = .next t → Inv t

/-- Left to itself, the sequencer always reaches IDLE, whatever the line and the clock answer, after a bounded number
of steps (`70_reset_and_hazards.md` R302) and within the line samples of `40_init.md` R140 and `41_refresh.md` R168;
from a state that meets the invariant BUSY is then 0. The bound in steps, `stepsLeft`, is of the model's granularity,
log 7, the abort a step of its own, log 8. -/
def Obligations.EveryCommandEnds : Prop :=
  ∀ s : State, s.agenda = [] → ∃ (k : Nat) (t : State), k ≤ stepsLeft s ∧ core.run k s = .next t ∧ t.seq = .idle ∧
    t.lineTaken ≤ s.lineTaken + samplesLeft s ∧ (Inv s → t.busy = false)

/-- READ_HUM and READ_TEMP, accepted after BEGIN and left to run, end whatever the line and the clock answer, after at
most 82 * (BUDGET + 1) samples and two clock reads: RESULT is the decoded cache where it is valid and NAN32 where it is
not, NODATA says which, and the cache is as before unless the refresh was fresh (`41_refresh.md` R168, R169;
`42_accessors.md` R193, R204). The run is one with no host access between; the bound in steps is of the model's
granularity, logs 7 and 8. -/
def Obligations.EveryAccessorEndsWithItsResult : Prop :=
  ∀ (s : State) (i : Instr) (force fahr : Bool), s.agenda = [] → s.init = true →
    i = .readHum force ∨ i = .readTemp force fahr →
    ∃ (a t : State) (k : Nat), exec i s = .next a ∧ core.run k a = .next t ∧
      k ≤ 82 * (s.budget.toNat + 1) + 10 ∧ t.busy = false ∧ t.seq = .idle ∧
      t.lineTaken ≤ s.lineTaken + 82 * (s.budget.toNat + 1) ∧ t.clockTaken ≤ s.clockTaken + 2 ∧
      t.nodata = !t.valid ∧
      t.result = (if t.valid = false then 0x7FC00000#32
        else if i = .readHum force then humOf t.cache
        else if fahr then ctof (tempCOf t.cache) else tempCOf t.cache) ∧
      (t.outcome = .skipped ∨ t.outcome = .fresh ∨ t.outcome = .failed) ∧
      (t.outcome = .fresh → t.valid = true ∧ t.err = .none ∧ t.cache.checksumOk = true) ∧
      (t.outcome = .skipped → t.err = .none ∧ t.lineTaken = s.lineTaken) ∧
      (t.outcome = .failed → t.err = .timeout ∨ t.err = .checksum) ∧
      (t.outcome ≠ .fresh → t.raw0 = s.raw0 ∧ t.raw1 = s.raw1 ∧ t.ts = s.ts ∧ t.valid = s.valid) ∧
      t.pinMode = (if t.outcome = .skipped then s.pinMode else .inPullup) ∧
      (s.guardActive = false → t.guardActive = false) ∧
      t.arg = s.arg ∧ t.configType = s.configType ∧ t.budget = s.budget ∧ t.bitthr = s.bitthr ∧
      t.settle = s.settle ∧ t.init = s.init ∧ t.caldef = s.caldef

/-- WAITIDLE returns: from a state that meets the invariant the host's poll ends, with BUSY = 0 and the sequencer
idle, and the host's next move is what followed it (`30_encoding.md` R116, `20_memory.md` R90). The bound in steps is
the model's: one sequencer move between two polls is log 10, and the steps of a command are logs 7 and 8. -/
def Obligations.WaitIdleReturns : Prop :=
  ∀ (s : State) (rest : List Event), Inv s → s.agenda = .host .waitIdle :: rest →
    ∃ (k : Nat) (t : State), k ≤ 2 * stepsLeft s + 1 ∧ core.run k s = .next t ∧ t.agenda = rest ∧ t.busy = false ∧
      t.seq = .idle ∧ t.rdata = statusWord t

/-- Only the commit, the end of BEGIN and reset change the ReadCache (`10_state.md` R45, `41_refresh.md` R169), and
VALID goes from 1 to 0 only by the end of BEGIN or reset. -/
def Obligations.OnlyCommitAndBeginWriteTheCache : Prop :=
  ∀ s t : State, step s = .next t →
    (t.raw0 ≠ s.raw0 ∨ t.raw1 ≠ s.raw1 ∨ t.ts ≠ s.ts ∨ t.valid ≠ s.valid →
      (sequencerMoves s ∧ (s.seq = .run .rCommit ∨ ∃ r, s.seq = .run (.bEnd r))) ∨
      s.agenda.head? = some .rst) ∧
    (s.valid = true → t.valid = false →
      (sequencerMoves s ∧ ∃ r, s.seq = .run (.bEnd r)) ∨ s.agenda.head? = some .rst)

/-- Who may write the other registers, reset apart (`10_state.md` R43, R44, R46, R50, R51, R52; `40_init.md` R139):
BUDGET, BITTHR, CALDEF and INIT only the end of BEGIN; ARG and CONFIG only a host write to them; SETTLE only an
accepted BEGIN or BEGIN_ARG; RESULT only a decode step or an accepted accessor or conversion; NODATA only the end of
BEGIN, a decode step or an accessor accepted while INIT = 0; OUTCOME only the end of BEGIN, the rate-limit check, the
commit or the abort path; ERR only these and an accepted command other than NOP; BUSY only the end of a command and an
accepted sequenced command; GUARD only the entries and exits of the guard; the parameters nothing (`10_state.md` R34,
R42, R58; `43_guard.md` R231, R232; `60_exceptions.md` R244). -/
def Obligations.EachRegisterHasItsWriters : Prop :=
  ∀ s t : State, step s = .next t → s.agenda.head? ≠ some .rst →
    (t.budget ≠ s.budget ∨ t.bitthr ≠ s.bitthr ∨ t.caldef ≠ s.caldef →
      sequencerMoves s ∧ ∃ r, s.seq = .run (.bEnd r)) ∧
    (t.arg ≠ s.arg → ∃ w, s.agenda.head? = some (.host (.wr 0x0C 4 w)) ∧ t.arg = w) ∧
    (t.configType ≠ s.configType → ∃ w, s.agenda.head? = some (.host (.wr 0x08 4 w)) ∧ s.init = false ∧
      s.busy = false) ∧
    (t.settle ≠ s.settle → ∃ w, s.agenda.head? = some (cmdWrite w) ∧ s.busy = false ∧
      (decodeWord w = .beginCmd ∨ decodeWord w = .beginArg)) ∧
    (t.result ≠ s.result → (sequencerMoves s ∧ s.seq = .run .rDecode) ∨
      ∃ w, s.agenda.head? = some (cmdWrite w) ∧ s.busy = false ∧
        ((opField w).toNat = 3 ∨ (opField w).toNat = 4 ∨ (opField w).toNat = 5)) ∧
    (t.init ≠ s.init → sequencerMoves s ∧ ∃ r, s.seq = .run (.bEnd r)) ∧
    (t.nodata ≠ s.nodata → (sequencerMoves s ∧ ((∃ r, s.seq = .run (.bEnd r)) ∨ s.seq = .run .rDecode)) ∨
      ∃ w, s.agenda.head? = some (cmdWrite w) ∧ s.busy = false ∧ s.init = false ∧
        ((opField w).toNat = 3 ∨ (opField w).toNat = 4)) ∧
    (t.outcome ≠ s.outcome → sequencerMoves s ∧ ((∃ r, s.seq = .run (.bEnd r)) ∨ s.seq = .run .rCheck ∨
      s.seq = .run .rCommit ∨ ∃ c, s.seq = .run (.rAbort c))) ∧
    (t.err ≠ s.err → (sequencerMoves s ∧ ((∃ r, s.seq = .run (.bEnd r)) ∨ s.seq = .run .rCheck ∨
      s.seq = .run .rCommit ∨ ∃ c, s.seq = .run (.rAbort c))) ∨
      ∃ w, s.agenda.head? = some (cmdWrite w) ∧ s.busy = false ∧ (opField w).toNat ≠ 0) ∧
    (t.busy ≠ s.busy → (sequencerMoves s ∧ ((∃ r, s.seq = .run (.bEnd r)) ∨ s.seq = .run .rDecode)) ∨
      ∃ w, s.agenda.head? = some (cmdWrite w) ∧ s.busy = false ∧ 1 ≤ (opField w).toNat ∧ (opField w).toNat ≤ 4) ∧
    (t.guardActive ≠ s.guardActive → sequencerMoves s ∧ (s.seq = .run .bRefEnter ∨ (∃ r, s.seq = .run (.bEnd r)) ∨
      s.seq = .run .rMeasEnter ∨ s.seq = .run .rGuardExit ∨ ∃ c, s.seq = .run (.rAbort c))) ∧
    t.inst = s.inst

/-- The line is sampled only while it is released and the guard is active (`10_state.md` R32, `43_guard.md` R233). -/
def Obligations.SamplesOnlyWhileReleasedAndGuarded : Prop :=
  ∀ s t : State, Inv s → step s = .next t → t.lineTaken ≠ s.lineTaken →
    t.lineTaken = s.lineTaken + 1 ∧ s.pinMode = .inPullup ∧ s.pinDir = false ∧ s.guardActive = true

/-- `irq_suppress` is GUARD where GUARD_EN is true and 0 where it is false (`43_guard.md` R230). -/
def Obligations.IrqSuppressFollowsTheGuard : Prop :=
  ∀ s : State, (s.params.guardEn = true → s.irqSuppress = s.guardActive) ∧
    (s.params.guardEn = false → s.irqSuppress = false)

/-- GUARD_EN changes nothing but `irq_suppress`: with either value every step gives the same next state, or the same
stop, up to GUARD_EN itself (`43_guard.md` R236). -/
def Obligations.GuardEnableChangesNoStep : Prop :=
  ∀ (s : State) (b : Bool), step (withGuardEn b s) = mapNext (withGuardEn b) (step s)

/-- Blocks share nothing: block `k` takes its own step, and stops where that stops, and every other block stays as it
is (`60_exceptions.md` R260). That a block that is not there makes no step is the model's choice, log 21; what blocks
with open parameters and no listed answers have in common is log 23. -/
def Obligations.BlocksShareNoState : Prop :=
  (∀ (bs cs : Platform) (k : Nat), bs.stepBlock k = .next cs →
    cs.length = bs.length ∧ (∀ m, m ≠ k → cs[m]? = bs[m]?) ∧
    (∀ s, bs[k]? = some s → ∃ t, step s = .next t ∧ cs[k]? = some t) ∧ (bs[k]? = none → cs = bs)) ∧
  (∀ (bs : Platform) (k : Nat) (s : State), bs[k]? = some s →
    (∀ t, step s = .next t → ∃ cs, bs.stepBlock k = .next cs ∧ cs[k]? = some t) ∧
    (∀ f, step s = .fault f → bs.stepBlock k = .fault f) ∧
    (∀ f, step s = .refused f → bs.stepBlock k = .refused f))

/-- The host's combined suppression request is the OR of the blocks' outputs (`60_exceptions.md` R262). -/
def Obligations.SuppressionIsTheOrOfTheBlocks : Prop :=
  ∀ bs : Platform, bs.irqSuppress = true ↔ ∃ s ∈ bs, s.irqSuppress = true

/-! ### The sequencer's micro-steps, whichever way the agenda gives it the turn -/

/-- The output ports in the three modes of the line port, and what each port primitive does: it sets the mode and
nothing else (`10_state.md` R31). -/
def Obligations.OutputPortsFollowTheMode : Prop :=
  (∀ s : State, s.pinMode = .outHigh → s.pinDir = true ∧ s.pinOut = true) ∧
  (∀ s : State, s.pinMode = .outLow → s.pinDir = true ∧ s.pinOut = false) ∧
  (∀ s : State, s.pinMode = .inPullup → s.pinDir = false ∧ s.pinOut = true) ∧
  (∀ s : State, s.pinDriveHigh = { s with pinMode := .outHigh } ∧ s.pinDriveLow = { s with pinMode := .outLow } ∧
    s.pinRelease = { s with pinMode := .inPullup })

/-- The wake and settle phases of BEGIN and of a wire cycle drive, release and wait, and do nothing else: idle high
for T_IDLE_US in BEGIN, low for T_WAKE_US, released for the settle time (`40_init.md` R136, `41_refresh.md` R151,
R155). That drive and wait are two steps is log 7; that a wait is summed in `waitedUs` is log 12. -/
def Obligations.DriveAndWaitPhases : Prop :=
  ∀ s : State, sequencerMoves s →
    (s.seq = .run .bHigh → step s = .next
      { s with agenda := s.agenda.tail, pinMode := .outHigh, seq := .run .bHighWait }) ∧
    (s.seq = .run .bHighWait → step s = .next
      { s with agenda := s.agenda.tail, waitedUs := s.waitedUs + s.params.tIdleUs.toNat, seq := .run .bWake }) ∧
    (s.seq = .run .bWake → step s = .next
      { s with agenda := s.agenda.tail, pinMode := .outLow, seq := .run .bWakeWait }) ∧
    (s.seq = .run .bWakeWait → step s = .next
      { s with agenda := s.agenda.tail, waitedUs := s.waitedUs + s.params.tWakeUs.toNat, seq := .run .bSettle }) ∧
    (s.seq = .run .bSettle → step s = .next
      { s with agenda := s.agenda.tail, pinMode := .inPullup, seq := .run .bSettleWait }) ∧
    (s.seq = .run .bSettleWait → step s = .next
      { s with agenda := s.agenda.tail, waitedUs := s.waitedUs + s.settle.toNat, seq := .run .bRefEnter }) ∧
    (s.seq = .run .rWake → step s = .next
      { s with agenda := s.agenda.tail, pinMode := .outLow, seq := .run .rWakeWait }) ∧
    (s.seq = .run .rWakeWait → step s = .next
      { s with agenda := s.agenda.tail, waitedUs := s.waitedUs + s.params.tWakeUs.toNat, seq := .run .rSettle }) ∧
    (s.seq = .run .rSettle → step s = .next
      { s with agenda := s.agenda.tail, pinMode := .inPullup, seq := .run .rSettleWait }) ∧
    (s.seq = .run .rSettleWait → step s = .next
      { s with agenda := s.agenda.tail, waitedUs := s.waitedUs + s.settle.toNat, seq := .run .rMeasEnter })

/-- The steps around a measurement: guard entry with the counter (and in a wire cycle the staging buffer) cleared, guard
exit, the checksum test, the commit (`40_init.md` R136; `41_refresh.md` R151, R163 to R166; `43_guard.md` R231, R232).
That each is a step of its own is log 7, and that a failed test leaves the abort path to the next step is log 8. -/
def Obligations.GuardValidateAndCommitPhases : Prop :=
  ∀ s : State, sequencerMoves s →
    (s.seq = .run .bRefEnter → step s = .next
      { s with agenda := s.agenda.tail, guardActive := true, cnt := 0#32, seq := .run .bRef }) ∧
    (s.seq = .run .rMeasEnter → step s = .next
      { s with agenda := s.agenda.tail, guardActive := true, cnt := 0#32, seq := .run (.rMeas 0),
               stage := { b0 := 0#8, b1 := 0#8, b2 := 0#8, b3 := 0#8, b4 := 0#8 } }) ∧
    (s.seq = .run .rGuardExit → step s = .next
      { s with agenda := s.agenda.tail, guardActive := false, seq := .run .rValidate }) ∧
    (s.seq = .run .rValidate → step s = .next
      { s with agenda := s.agenda.tail,
               seq := if s.stage.b4 = s.stage.b0 + s.stage.b1 + s.stage.b2 + s.stage.b3 then .run .rCommit
                 else .run (.rAbort .checksumMismatch) }) ∧
    (s.seq = .run .rCommit → step s = .next
      { s with agenda := s.agenda.tail, raw0 := s.stage.b3 ++ s.stage.b2 ++ s.stage.b1 ++ s.stage.b0,
               raw1 := s.stage.b4, ts := s.clockWord, clockIn := s.clockIn.tail, clockTaken := s.clockTaken + 1,
               valid := true, outcome := .fresh, err := .none, seq := .run .rDecode })

/-- One sample of a measurement, of the calibration and of a wire cycle: a sample at the other level ends it with the
count, a sample at the level times out where the count is at the bound and is counted below it (`41_refresh.md` R158,
R160; `40_init.md` R136). What else falls in the step of the last sample is log 7, and the abort a step later is log 8. -/
def Obligations.OneSampleStep : Prop :=
  ∀ s : State, sequencerMoves s →
    (s.seq = .run .bRef →
      (s.lineBit = true → step s = .next
        { s with agenda := s.agenda.tail, lineIn := s.lineIn.tail, lineTaken := s.lineTaken + 1,
                 seq := .run (.bEnd (.value s.cnt)) }) ∧
      (s.lineBit = false → s.params.budgetDefault ≤ s.cnt → step s = .next
        { s with agenda := s.agenda.tail, lineIn := s.lineIn.tail, lineTaken := s.lineTaken + 1,
                 seq := .run (.bEnd .timeout) }) ∧
      (s.lineBit = false → s.cnt < s.params.budgetDefault → step s = .next
        { s with agenda := s.agenda.tail, lineIn := s.lineIn.tail, lineTaken := s.lineTaken + 1,
                 cnt := s.cnt + 1#32 })) ∧
    (∀ j : Fin 82, s.seq = .run (.rMeas j) →
      (s.lineBit ≠ pulseLevel j.val → step s = .next (pulseDone j s.cnt
        { s with agenda := s.agenda.tail, lineIn := s.lineIn.tail, lineTaken := s.lineTaken + 1 })) ∧
      (s.lineBit = pulseLevel j.val → s.budget ≤ s.cnt → step s = .next
        { s with agenda := s.agenda.tail, lineIn := s.lineIn.tail, lineTaken := s.lineTaken + 1,
                 seq := .run (.rAbort .timeout) }) ∧
      (s.lineBit = pulseLevel j.val → s.cnt < s.budget → step s = .next
        { s with agenda := s.agenda.tail, lineIn := s.lineIn.tail, lineTaken := s.lineTaken + 1,
                 cnt := s.cnt + 1#32 }))

/-- The end of BEGIN in one step: guard exit, the calibration of an observed reference pulse or the defaults, the cache
initialised, the command complete, and nothing else (`40_init.md` R134, R135, R136). -/
def Obligations.EndOfBeginTakesOneStep : Prop :=
  ∀ (s : State) (r : Count), sequencerMoves s → s.seq = .run (.bEnd r) →
    (r = .timeout ∨ r = .value 0#32 → step s = .next
      { s with agenda := s.agenda.tail, guardActive := false, budget := s.params.budgetDefault,
               bitthr := s.params.thrDefault, caldef := true, raw0 := 0#32, raw1 := 0#8, ts := 0#32, valid := false,
               outcome := .none, nodata := false, init := true, err := .none, busy := false, seq := .idle }) ∧
    (∀ n : Word, n ≠ 0#32 → r = .value n → step s = .next
      { s with agenda := s.agenda.tail, guardActive := false, budget := budgetOf s.params n,
               bitthr := thresholdOf s.params n, caldef := false, raw0 := 0#32, raw1 := 0#8, ts := 0#32,
               valid := false, outcome := .none, nodata := false, init := true, err := .none, busy := false,
               seq := .idle })
end

