-- ==== Sys2Proof/Laws/State.lean ====
section
/-! SUPPORT. One lemma per field per named update of the state, each true by unfolding, so that no later proof
unfolds a record update. `params`, `lineBit` and `clockWord` are read through the updates in the same way. -/

namespace Sys2Proof.Machine

variable (s : State)

/-! `State.withAgenda` -/

@[simp] theorem State.withAgenda_configType (rest : List Event) : (s.withAgenda rest).configType = s.configType := rfl
@[simp] theorem State.withAgenda_arg (rest : List Event) : (s.withAgenda rest).arg = s.arg := rfl
@[simp] theorem State.withAgenda_result (rest : List Event) : (s.withAgenda rest).result = s.result := rfl
@[simp] theorem State.withAgenda_raw0 (rest : List Event) : (s.withAgenda rest).raw0 = s.raw0 := rfl
@[simp] theorem State.withAgenda_raw1 (rest : List Event) : (s.withAgenda rest).raw1 = s.raw1 := rfl
@[simp] theorem State.withAgenda_ts (rest : List Event) : (s.withAgenda rest).ts = s.ts := rfl
@[simp] theorem State.withAgenda_budget (rest : List Event) : (s.withAgenda rest).budget = s.budget := rfl
@[simp] theorem State.withAgenda_bitthr (rest : List Event) : (s.withAgenda rest).bitthr = s.bitthr := rfl
@[simp] theorem State.withAgenda_settle (rest : List Event) : (s.withAgenda rest).settle = s.settle := rfl
@[simp] theorem State.withAgenda_busy (rest : List Event) : (s.withAgenda rest).busy = s.busy := rfl
@[simp] theorem State.withAgenda_init (rest : List Event) : (s.withAgenda rest).init = s.init := rfl
@[simp] theorem State.withAgenda_valid (rest : List Event) : (s.withAgenda rest).valid = s.valid := rfl
@[simp] theorem State.withAgenda_guardActive (rest : List Event) : (s.withAgenda rest).guardActive = s.guardActive := rfl
@[simp] theorem State.withAgenda_caldef (rest : List Event) : (s.withAgenda rest).caldef = s.caldef := rfl
@[simp] theorem State.withAgenda_nodata (rest : List Event) : (s.withAgenda rest).nodata = s.nodata := rfl
@[simp] theorem State.withAgenda_outcome (rest : List Event) : (s.withAgenda rest).outcome = s.outcome := rfl
@[simp] theorem State.withAgenda_err (rest : List Event) : (s.withAgenda rest).err = s.err := rfl
@[simp] theorem State.withAgenda_seq (rest : List Event) : (s.withAgenda rest).seq = s.seq := rfl
@[simp] theorem State.withAgenda_op (rest : List Event) : (s.withAgenda rest).op = s.op := rfl
@[simp] theorem State.withAgenda_force (rest : List Event) : (s.withAgenda rest).force = s.force := rfl
@[simp] theorem State.withAgenda_fahr (rest : List Event) : (s.withAgenda rest).fahr = s.fahr := rfl
@[simp] theorem State.withAgenda_cnt (rest : List Event) : (s.withAgenda rest).cnt = s.cnt := rfl
@[simp] theorem State.withAgenda_bitk (rest : List Event) : (s.withAgenda rest).bitk = s.bitk := rfl
@[simp] theorem State.withAgenda_hcnt (rest : List Event) : (s.withAgenda rest).hcnt = s.hcnt := rfl
@[simp] theorem State.withAgenda_stage (rest : List Event) : (s.withAgenda rest).stage = s.stage := rfl
@[simp] theorem State.withAgenda_pinMode (rest : List Event) : (s.withAgenda rest).pinMode = s.pinMode := rfl
@[simp] theorem State.withAgenda_inst (rest : List Event) : (s.withAgenda rest).inst = s.inst := rfl
@[simp] theorem State.withAgenda_agenda (rest : List Event) : (s.withAgenda rest).agenda = rest := rfl
@[simp] theorem State.withAgenda_lineIn (rest : List Event) : (s.withAgenda rest).lineIn = s.lineIn := rfl
@[simp] theorem State.withAgenda_clockIn (rest : List Event) : (s.withAgenda rest).clockIn = s.clockIn := rfl
@[simp] theorem State.withAgenda_lineTaken (rest : List Event) : (s.withAgenda rest).lineTaken = s.lineTaken := rfl
@[simp] theorem State.withAgenda_clockTaken (rest : List Event) : (s.withAgenda rest).clockTaken = s.clockTaken := rfl
@[simp] theorem State.withAgenda_waitedUs (rest : List Event) : (s.withAgenda rest).waitedUs = s.waitedUs := rfl
@[simp] theorem State.withAgenda_rdata (rest : List Event) : (s.withAgenda rest).rdata = s.rdata := rfl
@[simp] theorem State.withAgenda_params (rest : List Event) : (s.withAgenda rest).params = s.params := rfl
@[simp] theorem State.withAgenda_lineBit (rest : List Event) : (s.withAgenda rest).lineBit = s.lineBit := rfl
@[simp] theorem State.withAgenda_clockWord (rest : List Event) : (s.withAgenda rest).clockWord = s.clockWord := rfl

/-! `State.withRdata` -/

@[simp] theorem State.withRdata_configType (w : Word) : (s.withRdata w).configType = s.configType := rfl
@[simp] theorem State.withRdata_arg (w : Word) : (s.withRdata w).arg = s.arg := rfl
@[simp] theorem State.withRdata_result (w : Word) : (s.withRdata w).result = s.result := rfl
@[simp] theorem State.withRdata_raw0 (w : Word) : (s.withRdata w).raw0 = s.raw0 := rfl
@[simp] theorem State.withRdata_raw1 (w : Word) : (s.withRdata w).raw1 = s.raw1 := rfl
@[simp] theorem State.withRdata_ts (w : Word) : (s.withRdata w).ts = s.ts := rfl
@[simp] theorem State.withRdata_budget (w : Word) : (s.withRdata w).budget = s.budget := rfl
@[simp] theorem State.withRdata_bitthr (w : Word) : (s.withRdata w).bitthr = s.bitthr := rfl
@[simp] theorem State.withRdata_settle (w : Word) : (s.withRdata w).settle = s.settle := rfl
@[simp] theorem State.withRdata_busy (w : Word) : (s.withRdata w).busy = s.busy := rfl
@[simp] theorem State.withRdata_init (w : Word) : (s.withRdata w).init = s.init := rfl
@[simp] theorem State.withRdata_valid (w : Word) : (s.withRdata w).valid = s.valid := rfl
@[simp] theorem State.withRdata_guardActive (w : Word) : (s.withRdata w).guardActive = s.guardActive := rfl
@[simp] theorem State.withRdata_caldef (w : Word) : (s.withRdata w).caldef = s.caldef := rfl
@[simp] theorem State.withRdata_nodata (w : Word) : (s.withRdata w).nodata = s.nodata := rfl
@[simp] theorem State.withRdata_outcome (w : Word) : (s.withRdata w).outcome = s.outcome := rfl
@[simp] theorem State.withRdata_err (w : Word) : (s.withRdata w).err = s.err := rfl
@[simp] theorem State.withRdata_seq (w : Word) : (s.withRdata w).seq = s.seq := rfl
@[simp] theorem State.withRdata_op (w : Word) : (s.withRdata w).op = s.op := rfl
@[simp] theorem State.withRdata_force (w : Word) : (s.withRdata w).force = s.force := rfl
@[simp] theorem State.withRdata_fahr (w : Word) : (s.withRdata w).fahr = s.fahr := rfl
@[simp] theorem State.withRdata_cnt (w : Word) : (s.withRdata w).cnt = s.cnt := rfl
@[simp] theorem State.withRdata_bitk (w : Word) : (s.withRdata w).bitk = s.bitk := rfl
@[simp] theorem State.withRdata_hcnt (w : Word) : (s.withRdata w).hcnt = s.hcnt := rfl
@[simp] theorem State.withRdata_stage (w : Word) : (s.withRdata w).stage = s.stage := rfl
@[simp] theorem State.withRdata_pinMode (w : Word) : (s.withRdata w).pinMode = s.pinMode := rfl
@[simp] theorem State.withRdata_inst (w : Word) : (s.withRdata w).inst = s.inst := rfl
@[simp] theorem State.withRdata_agenda (w : Word) : (s.withRdata w).agenda = s.agenda := rfl
@[simp] theorem State.withRdata_lineIn (w : Word) : (s.withRdata w).lineIn = s.lineIn := rfl
@[simp] theorem State.withRdata_clockIn (w : Word) : (s.withRdata w).clockIn = s.clockIn := rfl
@[simp] theorem State.withRdata_lineTaken (w : Word) : (s.withRdata w).lineTaken = s.lineTaken := rfl
@[simp] theorem State.withRdata_clockTaken (w : Word) : (s.withRdata w).clockTaken = s.clockTaken := rfl
@[simp] theorem State.withRdata_waitedUs (w : Word) : (s.withRdata w).waitedUs = s.waitedUs := rfl
@[simp] theorem State.withRdata_rdata (w : Word) : (s.withRdata w).rdata = w := rfl
@[simp] theorem State.withRdata_params (w : Word) : (s.withRdata w).params = s.params := rfl
@[simp] theorem State.withRdata_lineBit (w : Word) : (s.withRdata w).lineBit = s.lineBit := rfl
@[simp] theorem State.withRdata_clockWord (w : Word) : (s.withRdata w).clockWord = s.clockWord := rfl

/-! `State.latchCommand` -/

@[simp] theorem State.latchCommand_configType (w : Word) : (s.latchCommand w).configType = s.configType := rfl
@[simp] theorem State.latchCommand_arg (w : Word) : (s.latchCommand w).arg = s.arg := rfl
@[simp] theorem State.latchCommand_result (w : Word) : (s.latchCommand w).result = s.result := rfl
@[simp] theorem State.latchCommand_raw0 (w : Word) : (s.latchCommand w).raw0 = s.raw0 := rfl
@[simp] theorem State.latchCommand_raw1 (w : Word) : (s.latchCommand w).raw1 = s.raw1 := rfl
@[simp] theorem State.latchCommand_ts (w : Word) : (s.latchCommand w).ts = s.ts := rfl
@[simp] theorem State.latchCommand_budget (w : Word) : (s.latchCommand w).budget = s.budget := rfl
@[simp] theorem State.latchCommand_bitthr (w : Word) : (s.latchCommand w).bitthr = s.bitthr := rfl
@[simp] theorem State.latchCommand_settle (w : Word) : (s.latchCommand w).settle = s.settle := rfl
@[simp] theorem State.latchCommand_busy (w : Word) : (s.latchCommand w).busy = s.busy := rfl
@[simp] theorem State.latchCommand_init (w : Word) : (s.latchCommand w).init = s.init := rfl
@[simp] theorem State.latchCommand_valid (w : Word) : (s.latchCommand w).valid = s.valid := rfl
@[simp] theorem State.latchCommand_guardActive (w : Word) : (s.latchCommand w).guardActive = s.guardActive := rfl
@[simp] theorem State.latchCommand_caldef (w : Word) : (s.latchCommand w).caldef = s.caldef := rfl
@[simp] theorem State.latchCommand_nodata (w : Word) : (s.latchCommand w).nodata = s.nodata := rfl
@[simp] theorem State.latchCommand_outcome (w : Word) : (s.latchCommand w).outcome = s.outcome := rfl
@[simp] theorem State.latchCommand_err (w : Word) : (s.latchCommand w).err = s.err := rfl
@[simp] theorem State.latchCommand_seq (w : Word) : (s.latchCommand w).seq = s.seq := rfl
@[simp] theorem State.latchCommand_op (w : Word) : (s.latchCommand w).op = opField w := rfl
@[simp] theorem State.latchCommand_force (w : Word) : (s.latchCommand w).force = forceField w := rfl
@[simp] theorem State.latchCommand_fahr (w : Word) : (s.latchCommand w).fahr = fahrField w := rfl
@[simp] theorem State.latchCommand_cnt (w : Word) : (s.latchCommand w).cnt = s.cnt := rfl
@[simp] theorem State.latchCommand_bitk (w : Word) : (s.latchCommand w).bitk = s.bitk := rfl
@[simp] theorem State.latchCommand_hcnt (w : Word) : (s.latchCommand w).hcnt = s.hcnt := rfl
@[simp] theorem State.latchCommand_stage (w : Word) : (s.latchCommand w).stage = s.stage := rfl
@[simp] theorem State.latchCommand_pinMode (w : Word) : (s.latchCommand w).pinMode = s.pinMode := rfl
@[simp] theorem State.latchCommand_inst (w : Word) : (s.latchCommand w).inst = s.inst := rfl
@[simp] theorem State.latchCommand_agenda (w : Word) : (s.latchCommand w).agenda = s.agenda := rfl
@[simp] theorem State.latchCommand_lineIn (w : Word) : (s.latchCommand w).lineIn = s.lineIn := rfl
@[simp] theorem State.latchCommand_clockIn (w : Word) : (s.latchCommand w).clockIn = s.clockIn := rfl
@[simp] theorem State.latchCommand_lineTaken (w : Word) : (s.latchCommand w).lineTaken = s.lineTaken := rfl
@[simp] theorem State.latchCommand_clockTaken (w : Word) : (s.latchCommand w).clockTaken = s.clockTaken := rfl
@[simp] theorem State.latchCommand_waitedUs (w : Word) : (s.latchCommand w).waitedUs = s.waitedUs := rfl
@[simp] theorem State.latchCommand_rdata (w : Word) : (s.latchCommand w).rdata = s.rdata := rfl
@[simp] theorem State.latchCommand_params (w : Word) : (s.latchCommand w).params = s.params := rfl
@[simp] theorem State.latchCommand_lineBit (w : Word) : (s.latchCommand w).lineBit = s.lineBit := rfl
@[simp] theorem State.latchCommand_clockWord (w : Word) : (s.latchCommand w).clockWord = s.clockWord := rfl

/-! `State.setErr` -/

@[simp] theorem State.setErr_configType (e : ErrCode) : (s.setErr e).configType = s.configType := rfl
@[simp] theorem State.setErr_arg (e : ErrCode) : (s.setErr e).arg = s.arg := rfl
@[simp] theorem State.setErr_result (e : ErrCode) : (s.setErr e).result = s.result := rfl
@[simp] theorem State.setErr_raw0 (e : ErrCode) : (s.setErr e).raw0 = s.raw0 := rfl
@[simp] theorem State.setErr_raw1 (e : ErrCode) : (s.setErr e).raw1 = s.raw1 := rfl
@[simp] theorem State.setErr_ts (e : ErrCode) : (s.setErr e).ts = s.ts := rfl
@[simp] theorem State.setErr_budget (e : ErrCode) : (s.setErr e).budget = s.budget := rfl
@[simp] theorem State.setErr_bitthr (e : ErrCode) : (s.setErr e).bitthr = s.bitthr := rfl
@[simp] theorem State.setErr_settle (e : ErrCode) : (s.setErr e).settle = s.settle := rfl
@[simp] theorem State.setErr_busy (e : ErrCode) : (s.setErr e).busy = s.busy := rfl
@[simp] theorem State.setErr_init (e : ErrCode) : (s.setErr e).init = s.init := rfl
@[simp] theorem State.setErr_valid (e : ErrCode) : (s.setErr e).valid = s.valid := rfl
@[simp] theorem State.setErr_guardActive (e : ErrCode) : (s.setErr e).guardActive = s.guardActive := rfl
@[simp] theorem State.setErr_caldef (e : ErrCode) : (s.setErr e).caldef = s.caldef := rfl
@[simp] theorem State.setErr_nodata (e : ErrCode) : (s.setErr e).nodata = s.nodata := rfl
@[simp] theorem State.setErr_outcome (e : ErrCode) : (s.setErr e).outcome = s.outcome := rfl
@[simp] theorem State.setErr_err (e : ErrCode) : (s.setErr e).err = e := rfl
@[simp] theorem State.setErr_seq (e : ErrCode) : (s.setErr e).seq = s.seq := rfl
@[simp] theorem State.setErr_op (e : ErrCode) : (s.setErr e).op = s.op := rfl
@[simp] theorem State.setErr_force (e : ErrCode) : (s.setErr e).force = s.force := rfl
@[simp] theorem State.setErr_fahr (e : ErrCode) : (s.setErr e).fahr = s.fahr := rfl
@[simp] theorem State.setErr_cnt (e : ErrCode) : (s.setErr e).cnt = s.cnt := rfl
@[simp] theorem State.setErr_bitk (e : ErrCode) : (s.setErr e).bitk = s.bitk := rfl
@[simp] theorem State.setErr_hcnt (e : ErrCode) : (s.setErr e).hcnt = s.hcnt := rfl
@[simp] theorem State.setErr_stage (e : ErrCode) : (s.setErr e).stage = s.stage := rfl
@[simp] theorem State.setErr_pinMode (e : ErrCode) : (s.setErr e).pinMode = s.pinMode := rfl
@[simp] theorem State.setErr_inst (e : ErrCode) : (s.setErr e).inst = s.inst := rfl
@[simp] theorem State.setErr_agenda (e : ErrCode) : (s.setErr e).agenda = s.agenda := rfl
@[simp] theorem State.setErr_lineIn (e : ErrCode) : (s.setErr e).lineIn = s.lineIn := rfl
@[simp] theorem State.setErr_clockIn (e : ErrCode) : (s.setErr e).clockIn = s.clockIn := rfl
@[simp] theorem State.setErr_lineTaken (e : ErrCode) : (s.setErr e).lineTaken = s.lineTaken := rfl
@[simp] theorem State.setErr_clockTaken (e : ErrCode) : (s.setErr e).clockTaken = s.clockTaken := rfl
@[simp] theorem State.setErr_waitedUs (e : ErrCode) : (s.setErr e).waitedUs = s.waitedUs := rfl
@[simp] theorem State.setErr_rdata (e : ErrCode) : (s.setErr e).rdata = s.rdata := rfl
@[simp] theorem State.setErr_params (e : ErrCode) : (s.setErr e).params = s.params := rfl
@[simp] theorem State.setErr_lineBit (e : ErrCode) : (s.setErr e).lineBit = s.lineBit := rfl
@[simp] theorem State.setErr_clockWord (e : ErrCode) : (s.setErr e).clockWord = s.clockWord := rfl

/-! `State.setResult` -/

@[simp] theorem State.setResult_configType (w : Word) : (s.setResult w).configType = s.configType := rfl
@[simp] theorem State.setResult_arg (w : Word) : (s.setResult w).arg = s.arg := rfl
@[simp] theorem State.setResult_result (w : Word) : (s.setResult w).result = w := rfl
@[simp] theorem State.setResult_raw0 (w : Word) : (s.setResult w).raw0 = s.raw0 := rfl
@[simp] theorem State.setResult_raw1 (w : Word) : (s.setResult w).raw1 = s.raw1 := rfl
@[simp] theorem State.setResult_ts (w : Word) : (s.setResult w).ts = s.ts := rfl
@[simp] theorem State.setResult_budget (w : Word) : (s.setResult w).budget = s.budget := rfl
@[simp] theorem State.setResult_bitthr (w : Word) : (s.setResult w).bitthr = s.bitthr := rfl
@[simp] theorem State.setResult_settle (w : Word) : (s.setResult w).settle = s.settle := rfl
@[simp] theorem State.setResult_busy (w : Word) : (s.setResult w).busy = s.busy := rfl
@[simp] theorem State.setResult_init (w : Word) : (s.setResult w).init = s.init := rfl
@[simp] theorem State.setResult_valid (w : Word) : (s.setResult w).valid = s.valid := rfl
@[simp] theorem State.setResult_guardActive (w : Word) : (s.setResult w).guardActive = s.guardActive := rfl
@[simp] theorem State.setResult_caldef (w : Word) : (s.setResult w).caldef = s.caldef := rfl
@[simp] theorem State.setResult_nodata (w : Word) : (s.setResult w).nodata = s.nodata := rfl
@[simp] theorem State.setResult_outcome (w : Word) : (s.setResult w).outcome = s.outcome := rfl
@[simp] theorem State.setResult_err (w : Word) : (s.setResult w).err = s.err := rfl
@[simp] theorem State.setResult_seq (w : Word) : (s.setResult w).seq = s.seq := rfl
@[simp] theorem State.setResult_op (w : Word) : (s.setResult w).op = s.op := rfl
@[simp] theorem State.setResult_force (w : Word) : (s.setResult w).force = s.force := rfl
@[simp] theorem State.setResult_fahr (w : Word) : (s.setResult w).fahr = s.fahr := rfl
@[simp] theorem State.setResult_cnt (w : Word) : (s.setResult w).cnt = s.cnt := rfl
@[simp] theorem State.setResult_bitk (w : Word) : (s.setResult w).bitk = s.bitk := rfl
@[simp] theorem State.setResult_hcnt (w : Word) : (s.setResult w).hcnt = s.hcnt := rfl
@[simp] theorem State.setResult_stage (w : Word) : (s.setResult w).stage = s.stage := rfl
@[simp] theorem State.setResult_pinMode (w : Word) : (s.setResult w).pinMode = s.pinMode := rfl
@[simp] theorem State.setResult_inst (w : Word) : (s.setResult w).inst = s.inst := rfl
@[simp] theorem State.setResult_agenda (w : Word) : (s.setResult w).agenda = s.agenda := rfl
@[simp] theorem State.setResult_lineIn (w : Word) : (s.setResult w).lineIn = s.lineIn := rfl
@[simp] theorem State.setResult_clockIn (w : Word) : (s.setResult w).clockIn = s.clockIn := rfl
@[simp] theorem State.setResult_lineTaken (w : Word) : (s.setResult w).lineTaken = s.lineTaken := rfl
@[simp] theorem State.setResult_clockTaken (w : Word) : (s.setResult w).clockTaken = s.clockTaken := rfl
@[simp] theorem State.setResult_waitedUs (w : Word) : (s.setResult w).waitedUs = s.waitedUs := rfl
@[simp] theorem State.setResult_rdata (w : Word) : (s.setResult w).rdata = s.rdata := rfl
@[simp] theorem State.setResult_params (w : Word) : (s.setResult w).params = s.params := rfl
@[simp] theorem State.setResult_lineBit (w : Word) : (s.setResult w).lineBit = s.lineBit := rfl
@[simp] theorem State.setResult_clockWord (w : Word) : (s.setResult w).clockWord = s.clockWord := rfl

/-! `State.setNodata` -/

@[simp] theorem State.setNodata_configType (b : Bool) : (s.setNodata b).configType = s.configType := rfl
@[simp] theorem State.setNodata_arg (b : Bool) : (s.setNodata b).arg = s.arg := rfl
@[simp] theorem State.setNodata_result (b : Bool) : (s.setNodata b).result = s.result := rfl
@[simp] theorem State.setNodata_raw0 (b : Bool) : (s.setNodata b).raw0 = s.raw0 := rfl
@[simp] theorem State.setNodata_raw1 (b : Bool) : (s.setNodata b).raw1 = s.raw1 := rfl
@[simp] theorem State.setNodata_ts (b : Bool) : (s.setNodata b).ts = s.ts := rfl
@[simp] theorem State.setNodata_budget (b : Bool) : (s.setNodata b).budget = s.budget := rfl
@[simp] theorem State.setNodata_bitthr (b : Bool) : (s.setNodata b).bitthr = s.bitthr := rfl
@[simp] theorem State.setNodata_settle (b : Bool) : (s.setNodata b).settle = s.settle := rfl
@[simp] theorem State.setNodata_busy (b : Bool) : (s.setNodata b).busy = s.busy := rfl
@[simp] theorem State.setNodata_init (b : Bool) : (s.setNodata b).init = s.init := rfl
@[simp] theorem State.setNodata_valid (b : Bool) : (s.setNodata b).valid = s.valid := rfl
@[simp] theorem State.setNodata_guardActive (b : Bool) : (s.setNodata b).guardActive = s.guardActive := rfl
@[simp] theorem State.setNodata_caldef (b : Bool) : (s.setNodata b).caldef = s.caldef := rfl
@[simp] theorem State.setNodata_nodata (b : Bool) : (s.setNodata b).nodata = b := rfl
@[simp] theorem State.setNodata_outcome (b : Bool) : (s.setNodata b).outcome = s.outcome := rfl
@[simp] theorem State.setNodata_err (b : Bool) : (s.setNodata b).err = s.err := rfl
@[simp] theorem State.setNodata_seq (b : Bool) : (s.setNodata b).seq = s.seq := rfl
@[simp] theorem State.setNodata_op (b : Bool) : (s.setNodata b).op = s.op := rfl
@[simp] theorem State.setNodata_force (b : Bool) : (s.setNodata b).force = s.force := rfl
@[simp] theorem State.setNodata_fahr (b : Bool) : (s.setNodata b).fahr = s.fahr := rfl
@[simp] theorem State.setNodata_cnt (b : Bool) : (s.setNodata b).cnt = s.cnt := rfl
@[simp] theorem State.setNodata_bitk (b : Bool) : (s.setNodata b).bitk = s.bitk := rfl
@[simp] theorem State.setNodata_hcnt (b : Bool) : (s.setNodata b).hcnt = s.hcnt := rfl
@[simp] theorem State.setNodata_stage (b : Bool) : (s.setNodata b).stage = s.stage := rfl
@[simp] theorem State.setNodata_pinMode (b : Bool) : (s.setNodata b).pinMode = s.pinMode := rfl
@[simp] theorem State.setNodata_inst (b : Bool) : (s.setNodata b).inst = s.inst := rfl
@[simp] theorem State.setNodata_agenda (b : Bool) : (s.setNodata b).agenda = s.agenda := rfl
@[simp] theorem State.setNodata_lineIn (b : Bool) : (s.setNodata b).lineIn = s.lineIn := rfl
@[simp] theorem State.setNodata_clockIn (b : Bool) : (s.setNodata b).clockIn = s.clockIn := rfl
@[simp] theorem State.setNodata_lineTaken (b : Bool) : (s.setNodata b).lineTaken = s.lineTaken := rfl
@[simp] theorem State.setNodata_clockTaken (b : Bool) : (s.setNodata b).clockTaken = s.clockTaken := rfl
@[simp] theorem State.setNodata_waitedUs (b : Bool) : (s.setNodata b).waitedUs = s.waitedUs := rfl
@[simp] theorem State.setNodata_rdata (b : Bool) : (s.setNodata b).rdata = s.rdata := rfl
@[simp] theorem State.setNodata_params (b : Bool) : (s.setNodata b).params = s.params := rfl
@[simp] theorem State.setNodata_lineBit (b : Bool) : (s.setNodata b).lineBit = s.lineBit := rfl
@[simp] theorem State.setNodata_clockWord (b : Bool) : (s.setNodata b).clockWord = s.clockWord := rfl

/-! `State.goto` -/

@[simp] theorem State.goto_configType (p : Phase) : (s.goto p).configType = s.configType := rfl
@[simp] theorem State.goto_arg (p : Phase) : (s.goto p).arg = s.arg := rfl
@[simp] theorem State.goto_result (p : Phase) : (s.goto p).result = s.result := rfl
@[simp] theorem State.goto_raw0 (p : Phase) : (s.goto p).raw0 = s.raw0 := rfl
@[simp] theorem State.goto_raw1 (p : Phase) : (s.goto p).raw1 = s.raw1 := rfl
@[simp] theorem State.goto_ts (p : Phase) : (s.goto p).ts = s.ts := rfl
@[simp] theorem State.goto_budget (p : Phase) : (s.goto p).budget = s.budget := rfl
@[simp] theorem State.goto_bitthr (p : Phase) : (s.goto p).bitthr = s.bitthr := rfl
@[simp] theorem State.goto_settle (p : Phase) : (s.goto p).settle = s.settle := rfl
@[simp] theorem State.goto_busy (p : Phase) : (s.goto p).busy = s.busy := rfl
@[simp] theorem State.goto_init (p : Phase) : (s.goto p).init = s.init := rfl
@[simp] theorem State.goto_valid (p : Phase) : (s.goto p).valid = s.valid := rfl
@[simp] theorem State.goto_guardActive (p : Phase) : (s.goto p).guardActive = s.guardActive := rfl
@[simp] theorem State.goto_caldef (p : Phase) : (s.goto p).caldef = s.caldef := rfl
@[simp] theorem State.goto_nodata (p : Phase) : (s.goto p).nodata = s.nodata := rfl
@[simp] theorem State.goto_outcome (p : Phase) : (s.goto p).outcome = s.outcome := rfl
@[simp] theorem State.goto_err (p : Phase) : (s.goto p).err = s.err := rfl
@[simp] theorem State.goto_seq (p : Phase) : (s.goto p).seq = .run p := rfl
@[simp] theorem State.goto_op (p : Phase) : (s.goto p).op = s.op := rfl
@[simp] theorem State.goto_force (p : Phase) : (s.goto p).force = s.force := rfl
@[simp] theorem State.goto_fahr (p : Phase) : (s.goto p).fahr = s.fahr := rfl
@[simp] theorem State.goto_cnt (p : Phase) : (s.goto p).cnt = s.cnt := rfl
@[simp] theorem State.goto_bitk (p : Phase) : (s.goto p).bitk = s.bitk := rfl
@[simp] theorem State.goto_hcnt (p : Phase) : (s.goto p).hcnt = s.hcnt := rfl
@[simp] theorem State.goto_stage (p : Phase) : (s.goto p).stage = s.stage := rfl
@[simp] theorem State.goto_pinMode (p : Phase) : (s.goto p).pinMode = s.pinMode := rfl
@[simp] theorem State.goto_inst (p : Phase) : (s.goto p).inst = s.inst := rfl
@[simp] theorem State.goto_agenda (p : Phase) : (s.goto p).agenda = s.agenda := rfl
@[simp] theorem State.goto_lineIn (p : Phase) : (s.goto p).lineIn = s.lineIn := rfl
@[simp] theorem State.goto_clockIn (p : Phase) : (s.goto p).clockIn = s.clockIn := rfl
@[simp] theorem State.goto_lineTaken (p : Phase) : (s.goto p).lineTaken = s.lineTaken := rfl
@[simp] theorem State.goto_clockTaken (p : Phase) : (s.goto p).clockTaken = s.clockTaken := rfl
@[simp] theorem State.goto_waitedUs (p : Phase) : (s.goto p).waitedUs = s.waitedUs := rfl
@[simp] theorem State.goto_rdata (p : Phase) : (s.goto p).rdata = s.rdata := rfl
@[simp] theorem State.goto_params (p : Phase) : (s.goto p).params = s.params := rfl
@[simp] theorem State.goto_lineBit (p : Phase) : (s.goto p).lineBit = s.lineBit := rfl
@[simp] theorem State.goto_clockWord (p : Phase) : (s.goto p).clockWord = s.clockWord := rfl

/-! `State.start` -/

@[simp] theorem State.start_configType (c : BitVec 4) (p : Phase) : (s.start c p).configType = s.configType := rfl
@[simp] theorem State.start_arg (c : BitVec 4) (p : Phase) : (s.start c p).arg = s.arg := rfl
@[simp] theorem State.start_result (c : BitVec 4) (p : Phase) : (s.start c p).result = s.result := rfl
@[simp] theorem State.start_raw0 (c : BitVec 4) (p : Phase) : (s.start c p).raw0 = s.raw0 := rfl
@[simp] theorem State.start_raw1 (c : BitVec 4) (p : Phase) : (s.start c p).raw1 = s.raw1 := rfl
@[simp] theorem State.start_ts (c : BitVec 4) (p : Phase) : (s.start c p).ts = s.ts := rfl
@[simp] theorem State.start_budget (c : BitVec 4) (p : Phase) : (s.start c p).budget = s.budget := rfl
@[simp] theorem State.start_bitthr (c : BitVec 4) (p : Phase) : (s.start c p).bitthr = s.bitthr := rfl
@[simp] theorem State.start_settle (c : BitVec 4) (p : Phase) : (s.start c p).settle = s.settle := rfl
@[simp] theorem State.start_busy (c : BitVec 4) (p : Phase) : (s.start c p).busy = true := rfl
@[simp] theorem State.start_init (c : BitVec 4) (p : Phase) : (s.start c p).init = s.init := rfl
@[simp] theorem State.start_valid (c : BitVec 4) (p : Phase) : (s.start c p).valid = s.valid := rfl
@[simp] theorem State.start_guardActive (c : BitVec 4) (p : Phase) : (s.start c p).guardActive = s.guardActive := rfl
@[simp] theorem State.start_caldef (c : BitVec 4) (p : Phase) : (s.start c p).caldef = s.caldef := rfl
@[simp] theorem State.start_nodata (c : BitVec 4) (p : Phase) : (s.start c p).nodata = s.nodata := rfl
@[simp] theorem State.start_outcome (c : BitVec 4) (p : Phase) : (s.start c p).outcome = s.outcome := rfl
@[simp] theorem State.start_err (c : BitVec 4) (p : Phase) : (s.start c p).err = s.err := rfl
@[simp] theorem State.start_seq (c : BitVec 4) (p : Phase) : (s.start c p).seq = .run p := rfl
@[simp] theorem State.start_op (c : BitVec 4) (p : Phase) : (s.start c p).op = c := rfl
@[simp] theorem State.start_force (c : BitVec 4) (p : Phase) : (s.start c p).force = s.force := rfl
@[simp] theorem State.start_fahr (c : BitVec 4) (p : Phase) : (s.start c p).fahr = s.fahr := rfl
@[simp] theorem State.start_cnt (c : BitVec 4) (p : Phase) : (s.start c p).cnt = s.cnt := rfl
@[simp] theorem State.start_bitk (c : BitVec 4) (p : Phase) : (s.start c p).bitk = s.bitk := rfl
@[simp] theorem State.start_hcnt (c : BitVec 4) (p : Phase) : (s.start c p).hcnt = s.hcnt := rfl
@[simp] theorem State.start_stage (c : BitVec 4) (p : Phase) : (s.start c p).stage = s.stage := rfl
@[simp] theorem State.start_pinMode (c : BitVec 4) (p : Phase) : (s.start c p).pinMode = s.pinMode := rfl
@[simp] theorem State.start_inst (c : BitVec 4) (p : Phase) : (s.start c p).inst = s.inst := rfl
@[simp] theorem State.start_agenda (c : BitVec 4) (p : Phase) : (s.start c p).agenda = s.agenda := rfl
@[simp] theorem State.start_lineIn (c : BitVec 4) (p : Phase) : (s.start c p).lineIn = s.lineIn := rfl
@[simp] theorem State.start_clockIn (c : BitVec 4) (p : Phase) : (s.start c p).clockIn = s.clockIn := rfl
@[simp] theorem State.start_lineTaken (c : BitVec 4) (p : Phase) : (s.start c p).lineTaken = s.lineTaken := rfl
@[simp] theorem State.start_clockTaken (c : BitVec 4) (p : Phase) : (s.start c p).clockTaken = s.clockTaken := rfl
@[simp] theorem State.start_waitedUs (c : BitVec 4) (p : Phase) : (s.start c p).waitedUs = s.waitedUs := rfl
@[simp] theorem State.start_rdata (c : BitVec 4) (p : Phase) : (s.start c p).rdata = s.rdata := rfl
@[simp] theorem State.start_params (c : BitVec 4) (p : Phase) : (s.start c p).params = s.params := rfl
@[simp] theorem State.start_lineBit (c : BitVec 4) (p : Phase) : (s.start c p).lineBit = s.lineBit := rfl
@[simp] theorem State.start_clockWord (c : BitVec 4) (p : Phase) : (s.start c p).clockWord = s.clockWord := rfl

/-! `State.complete` -/

@[simp] theorem State.complete_configType : s.complete.configType = s.configType := rfl
@[simp] theorem State.complete_arg : s.complete.arg = s.arg := rfl
@[simp] theorem State.complete_result : s.complete.result = s.result := rfl
@[simp] theorem State.complete_raw0 : s.complete.raw0 = s.raw0 := rfl
@[simp] theorem State.complete_raw1 : s.complete.raw1 = s.raw1 := rfl
@[simp] theorem State.complete_ts : s.complete.ts = s.ts := rfl
@[simp] theorem State.complete_budget : s.complete.budget = s.budget := rfl
@[simp] theorem State.complete_bitthr : s.complete.bitthr = s.bitthr := rfl
@[simp] theorem State.complete_settle : s.complete.settle = s.settle := rfl
@[simp] theorem State.complete_busy : s.complete.busy = false := rfl
@[simp] theorem State.complete_init : s.complete.init = s.init := rfl
@[simp] theorem State.complete_valid : s.complete.valid = s.valid := rfl
@[simp] theorem State.complete_guardActive : s.complete.guardActive = s.guardActive := rfl
@[simp] theorem State.complete_caldef : s.complete.caldef = s.caldef := rfl
@[simp] theorem State.complete_nodata : s.complete.nodata = s.nodata := rfl
@[simp] theorem State.complete_outcome : s.complete.outcome = s.outcome := rfl
@[simp] theorem State.complete_err : s.complete.err = s.err := rfl
@[simp] theorem State.complete_seq : s.complete.seq = .idle := rfl
@[simp] theorem State.complete_op : s.complete.op = s.op := rfl
@[simp] theorem State.complete_force : s.complete.force = s.force := rfl
@[simp] theorem State.complete_fahr : s.complete.fahr = s.fahr := rfl
@[simp] theorem State.complete_cnt : s.complete.cnt = s.cnt := rfl
@[simp] theorem State.complete_bitk : s.complete.bitk = s.bitk := rfl
@[simp] theorem State.complete_hcnt : s.complete.hcnt = s.hcnt := rfl
@[simp] theorem State.complete_stage : s.complete.stage = s.stage := rfl
@[simp] theorem State.complete_pinMode : s.complete.pinMode = s.pinMode := rfl
@[simp] theorem State.complete_inst : s.complete.inst = s.inst := rfl
@[simp] theorem State.complete_agenda : s.complete.agenda = s.agenda := rfl
@[simp] theorem State.complete_lineIn : s.complete.lineIn = s.lineIn := rfl
@[simp] theorem State.complete_clockIn : s.complete.clockIn = s.clockIn := rfl
@[simp] theorem State.complete_lineTaken : s.complete.lineTaken = s.lineTaken := rfl
@[simp] theorem State.complete_clockTaken : s.complete.clockTaken = s.clockTaken := rfl
@[simp] theorem State.complete_waitedUs : s.complete.waitedUs = s.waitedUs := rfl
@[simp] theorem State.complete_rdata : s.complete.rdata = s.rdata := rfl
@[simp] theorem State.complete_params : s.complete.params = s.params := rfl
@[simp] theorem State.complete_lineBit : s.complete.lineBit = s.lineBit := rfl
@[simp] theorem State.complete_clockWord : s.complete.clockWord = s.clockWord := rfl

/-! `State.pinDriveHigh` -/

@[simp] theorem State.pinDriveHigh_configType : s.pinDriveHigh.configType = s.configType := rfl
@[simp] theorem State.pinDriveHigh_arg : s.pinDriveHigh.arg = s.arg := rfl
@[simp] theorem State.pinDriveHigh_result : s.pinDriveHigh.result = s.result := rfl
@[simp] theorem State.pinDriveHigh_raw0 : s.pinDriveHigh.raw0 = s.raw0 := rfl
@[simp] theorem State.pinDriveHigh_raw1 : s.pinDriveHigh.raw1 = s.raw1 := rfl
@[simp] theorem State.pinDriveHigh_ts : s.pinDriveHigh.ts = s.ts := rfl
@[simp] theorem State.pinDriveHigh_budget : s.pinDriveHigh.budget = s.budget := rfl
@[simp] theorem State.pinDriveHigh_bitthr : s.pinDriveHigh.bitthr = s.bitthr := rfl
@[simp] theorem State.pinDriveHigh_settle : s.pinDriveHigh.settle = s.settle := rfl
@[simp] theorem State.pinDriveHigh_busy : s.pinDriveHigh.busy = s.busy := rfl
@[simp] theorem State.pinDriveHigh_init : s.pinDriveHigh.init = s.init := rfl
@[simp] theorem State.pinDriveHigh_valid : s.pinDriveHigh.valid = s.valid := rfl
@[simp] theorem State.pinDriveHigh_guardActive : s.pinDriveHigh.guardActive = s.guardActive := rfl
@[simp] theorem State.pinDriveHigh_caldef : s.pinDriveHigh.caldef = s.caldef := rfl
@[simp] theorem State.pinDriveHigh_nodata : s.pinDriveHigh.nodata = s.nodata := rfl
@[simp] theorem State.pinDriveHigh_outcome : s.pinDriveHigh.outcome = s.outcome := rfl
@[simp] theorem State.pinDriveHigh_err : s.pinDriveHigh.err = s.err := rfl
@[simp] theorem State.pinDriveHigh_seq : s.pinDriveHigh.seq = s.seq := rfl
@[simp] theorem State.pinDriveHigh_op : s.pinDriveHigh.op = s.op := rfl
@[simp] theorem State.pinDriveHigh_force : s.pinDriveHigh.force = s.force := rfl
@[simp] theorem State.pinDriveHigh_fahr : s.pinDriveHigh.fahr = s.fahr := rfl
@[simp] theorem State.pinDriveHigh_cnt : s.pinDriveHigh.cnt = s.cnt := rfl
@[simp] theorem State.pinDriveHigh_bitk : s.pinDriveHigh.bitk = s.bitk := rfl
@[simp] theorem State.pinDriveHigh_hcnt : s.pinDriveHigh.hcnt = s.hcnt := rfl
@[simp] theorem State.pinDriveHigh_stage : s.pinDriveHigh.stage = s.stage := rfl
@[simp] theorem State.pinDriveHigh_pinMode : s.pinDriveHigh.pinMode = .outHigh := rfl
@[simp] theorem State.pinDriveHigh_inst : s.pinDriveHigh.inst = s.inst := rfl
@[simp] theorem State.pinDriveHigh_agenda : s.pinDriveHigh.agenda = s.agenda := rfl
@[simp] theorem State.pinDriveHigh_lineIn : s.pinDriveHigh.lineIn = s.lineIn := rfl
@[simp] theorem State.pinDriveHigh_clockIn : s.pinDriveHigh.clockIn = s.clockIn := rfl
@[simp] theorem State.pinDriveHigh_lineTaken : s.pinDriveHigh.lineTaken = s.lineTaken := rfl
@[simp] theorem State.pinDriveHigh_clockTaken : s.pinDriveHigh.clockTaken = s.clockTaken := rfl
@[simp] theorem State.pinDriveHigh_waitedUs : s.pinDriveHigh.waitedUs = s.waitedUs := rfl
@[simp] theorem State.pinDriveHigh_rdata : s.pinDriveHigh.rdata = s.rdata := rfl
@[simp] theorem State.pinDriveHigh_params : s.pinDriveHigh.params = s.params := rfl
@[simp] theorem State.pinDriveHigh_lineBit : s.pinDriveHigh.lineBit = s.lineBit := rfl
@[simp] theorem State.pinDriveHigh_clockWord : s.pinDriveHigh.clockWord = s.clockWord := rfl

/-! `State.pinDriveLow` -/

@[simp] theorem State.pinDriveLow_configType : s.pinDriveLow.configType = s.configType := rfl
@[simp] theorem State.pinDriveLow_arg : s.pinDriveLow.arg = s.arg := rfl
@[simp] theorem State.pinDriveLow_result : s.pinDriveLow.result = s.result := rfl
@[simp] theorem State.pinDriveLow_raw0 : s.pinDriveLow.raw0 = s.raw0 := rfl
@[simp] theorem State.pinDriveLow_raw1 : s.pinDriveLow.raw1 = s.raw1 := rfl
@[simp] theorem State.pinDriveLow_ts : s.pinDriveLow.ts = s.ts := rfl
@[simp] theorem State.pinDriveLow_budget : s.pinDriveLow.budget = s.budget := rfl
@[simp] theorem State.pinDriveLow_bitthr : s.pinDriveLow.bitthr = s.bitthr := rfl
@[simp] theorem State.pinDriveLow_settle : s.pinDriveLow.settle = s.settle := rfl
@[simp] theorem State.pinDriveLow_busy : s.pinDriveLow.busy = s.busy := rfl
@[simp] theorem State.pinDriveLow_init : s.pinDriveLow.init = s.init := rfl
@[simp] theorem State.pinDriveLow_valid : s.pinDriveLow.valid = s.valid := rfl
@[simp] theorem State.pinDriveLow_guardActive : s.pinDriveLow.guardActive = s.guardActive := rfl
@[simp] theorem State.pinDriveLow_caldef : s.pinDriveLow.caldef = s.caldef := rfl
@[simp] theorem State.pinDriveLow_nodata : s.pinDriveLow.nodata = s.nodata := rfl
@[simp] theorem State.pinDriveLow_outcome : s.pinDriveLow.outcome = s.outcome := rfl
@[simp] theorem State.pinDriveLow_err : s.pinDriveLow.err = s.err := rfl
@[simp] theorem State.pinDriveLow_seq : s.pinDriveLow.seq = s.seq := rfl
@[simp] theorem State.pinDriveLow_op : s.pinDriveLow.op = s.op := rfl
@[simp] theorem State.pinDriveLow_force : s.pinDriveLow.force = s.force := rfl
@[simp] theorem State.pinDriveLow_fahr : s.pinDriveLow.fahr = s.fahr := rfl
@[simp] theorem State.pinDriveLow_cnt : s.pinDriveLow.cnt = s.cnt := rfl
@[simp] theorem State.pinDriveLow_bitk : s.pinDriveLow.bitk = s.bitk := rfl
@[simp] theorem State.pinDriveLow_hcnt : s.pinDriveLow.hcnt = s.hcnt := rfl
@[simp] theorem State.pinDriveLow_stage : s.pinDriveLow.stage = s.stage := rfl
@[simp] theorem State.pinDriveLow_pinMode : s.pinDriveLow.pinMode = .outLow := rfl
@[simp] theorem State.pinDriveLow_inst : s.pinDriveLow.inst = s.inst := rfl
@[simp] theorem State.pinDriveLow_agenda : s.pinDriveLow.agenda = s.agenda := rfl
@[simp] theorem State.pinDriveLow_lineIn : s.pinDriveLow.lineIn = s.lineIn := rfl
@[simp] theorem State.pinDriveLow_clockIn : s.pinDriveLow.clockIn = s.clockIn := rfl
@[simp] theorem State.pinDriveLow_lineTaken : s.pinDriveLow.lineTaken = s.lineTaken := rfl
@[simp] theorem State.pinDriveLow_clockTaken : s.pinDriveLow.clockTaken = s.clockTaken := rfl
@[simp] theorem State.pinDriveLow_waitedUs : s.pinDriveLow.waitedUs = s.waitedUs := rfl
@[simp] theorem State.pinDriveLow_rdata : s.pinDriveLow.rdata = s.rdata := rfl
@[simp] theorem State.pinDriveLow_params : s.pinDriveLow.params = s.params := rfl
@[simp] theorem State.pinDriveLow_lineBit : s.pinDriveLow.lineBit = s.lineBit := rfl
@[simp] theorem State.pinDriveLow_clockWord : s.pinDriveLow.clockWord = s.clockWord := rfl

/-! `State.pinRelease` -/

@[simp] theorem State.pinRelease_configType : s.pinRelease.configType = s.configType := rfl
@[simp] theorem State.pinRelease_arg : s.pinRelease.arg = s.arg := rfl
@[simp] theorem State.pinRelease_result : s.pinRelease.result = s.result := rfl
@[simp] theorem State.pinRelease_raw0 : s.pinRelease.raw0 = s.raw0 := rfl
@[simp] theorem State.pinRelease_raw1 : s.pinRelease.raw1 = s.raw1 := rfl
@[simp] theorem State.pinRelease_ts : s.pinRelease.ts = s.ts := rfl
@[simp] theorem State.pinRelease_budget : s.pinRelease.budget = s.budget := rfl
@[simp] theorem State.pinRelease_bitthr : s.pinRelease.bitthr = s.bitthr := rfl
@[simp] theorem State.pinRelease_settle : s.pinRelease.settle = s.settle := rfl
@[simp] theorem State.pinRelease_busy : s.pinRelease.busy = s.busy := rfl
@[simp] theorem State.pinRelease_init : s.pinRelease.init = s.init := rfl
@[simp] theorem State.pinRelease_valid : s.pinRelease.valid = s.valid := rfl
@[simp] theorem State.pinRelease_guardActive : s.pinRelease.guardActive = s.guardActive := rfl
@[simp] theorem State.pinRelease_caldef : s.pinRelease.caldef = s.caldef := rfl
@[simp] theorem State.pinRelease_nodata : s.pinRelease.nodata = s.nodata := rfl
@[simp] theorem State.pinRelease_outcome : s.pinRelease.outcome = s.outcome := rfl
@[simp] theorem State.pinRelease_err : s.pinRelease.err = s.err := rfl
@[simp] theorem State.pinRelease_seq : s.pinRelease.seq = s.seq := rfl
@[simp] theorem State.pinRelease_op : s.pinRelease.op = s.op := rfl
@[simp] theorem State.pinRelease_force : s.pinRelease.force = s.force := rfl
@[simp] theorem State.pinRelease_fahr : s.pinRelease.fahr = s.fahr := rfl
@[simp] theorem State.pinRelease_cnt : s.pinRelease.cnt = s.cnt := rfl
@[simp] theorem State.pinRelease_bitk : s.pinRelease.bitk = s.bitk := rfl
@[simp] theorem State.pinRelease_hcnt : s.pinRelease.hcnt = s.hcnt := rfl
@[simp] theorem State.pinRelease_stage : s.pinRelease.stage = s.stage := rfl
@[simp] theorem State.pinRelease_pinMode : s.pinRelease.pinMode = .inPullup := rfl
@[simp] theorem State.pinRelease_inst : s.pinRelease.inst = s.inst := rfl
@[simp] theorem State.pinRelease_agenda : s.pinRelease.agenda = s.agenda := rfl
@[simp] theorem State.pinRelease_lineIn : s.pinRelease.lineIn = s.lineIn := rfl
@[simp] theorem State.pinRelease_clockIn : s.pinRelease.clockIn = s.clockIn := rfl
@[simp] theorem State.pinRelease_lineTaken : s.pinRelease.lineTaken = s.lineTaken := rfl
@[simp] theorem State.pinRelease_clockTaken : s.pinRelease.clockTaken = s.clockTaken := rfl
@[simp] theorem State.pinRelease_waitedUs : s.pinRelease.waitedUs = s.waitedUs := rfl
@[simp] theorem State.pinRelease_rdata : s.pinRelease.rdata = s.rdata := rfl
@[simp] theorem State.pinRelease_params : s.pinRelease.params = s.params := rfl
@[simp] theorem State.pinRelease_lineBit : s.pinRelease.lineBit = s.lineBit := rfl
@[simp] theorem State.pinRelease_clockWord : s.pinRelease.clockWord = s.clockWord := rfl

/-! `State.delayUs` -/

@[simp] theorem State.delayUs_configType (n : Nat) : (s.delayUs n).configType = s.configType := rfl
@[simp] theorem State.delayUs_arg (n : Nat) : (s.delayUs n).arg = s.arg := rfl
@[simp] theorem State.delayUs_result (n : Nat) : (s.delayUs n).result = s.result := rfl
@[simp] theorem State.delayUs_raw0 (n : Nat) : (s.delayUs n).raw0 = s.raw0 := rfl
@[simp] theorem State.delayUs_raw1 (n : Nat) : (s.delayUs n).raw1 = s.raw1 := rfl
@[simp] theorem State.delayUs_ts (n : Nat) : (s.delayUs n).ts = s.ts := rfl
@[simp] theorem State.delayUs_budget (n : Nat) : (s.delayUs n).budget = s.budget := rfl
@[simp] theorem State.delayUs_bitthr (n : Nat) : (s.delayUs n).bitthr = s.bitthr := rfl
@[simp] theorem State.delayUs_settle (n : Nat) : (s.delayUs n).settle = s.settle := rfl
@[simp] theorem State.delayUs_busy (n : Nat) : (s.delayUs n).busy = s.busy := rfl
@[simp] theorem State.delayUs_init (n : Nat) : (s.delayUs n).init = s.init := rfl
@[simp] theorem State.delayUs_valid (n : Nat) : (s.delayUs n).valid = s.valid := rfl
@[simp] theorem State.delayUs_guardActive (n : Nat) : (s.delayUs n).guardActive = s.guardActive := rfl
@[simp] theorem State.delayUs_caldef (n : Nat) : (s.delayUs n).caldef = s.caldef := rfl
@[simp] theorem State.delayUs_nodata (n : Nat) : (s.delayUs n).nodata = s.nodata := rfl
@[simp] theorem State.delayUs_outcome (n : Nat) : (s.delayUs n).outcome = s.outcome := rfl
@[simp] theorem State.delayUs_err (n : Nat) : (s.delayUs n).err = s.err := rfl
@[simp] theorem State.delayUs_seq (n : Nat) : (s.delayUs n).seq = s.seq := rfl
@[simp] theorem State.delayUs_op (n : Nat) : (s.delayUs n).op = s.op := rfl
@[simp] theorem State.delayUs_force (n : Nat) : (s.delayUs n).force = s.force := rfl
@[simp] theorem State.delayUs_fahr (n : Nat) : (s.delayUs n).fahr = s.fahr := rfl
@[simp] theorem State.delayUs_cnt (n : Nat) : (s.delayUs n).cnt = s.cnt := rfl
@[simp] theorem State.delayUs_bitk (n : Nat) : (s.delayUs n).bitk = s.bitk := rfl
@[simp] theorem State.delayUs_hcnt (n : Nat) : (s.delayUs n).hcnt = s.hcnt := rfl
@[simp] theorem State.delayUs_stage (n : Nat) : (s.delayUs n).stage = s.stage := rfl
@[simp] theorem State.delayUs_pinMode (n : Nat) : (s.delayUs n).pinMode = s.pinMode := rfl
@[simp] theorem State.delayUs_inst (n : Nat) : (s.delayUs n).inst = s.inst := rfl
@[simp] theorem State.delayUs_agenda (n : Nat) : (s.delayUs n).agenda = s.agenda := rfl
@[simp] theorem State.delayUs_lineIn (n : Nat) : (s.delayUs n).lineIn = s.lineIn := rfl
@[simp] theorem State.delayUs_clockIn (n : Nat) : (s.delayUs n).clockIn = s.clockIn := rfl
@[simp] theorem State.delayUs_lineTaken (n : Nat) : (s.delayUs n).lineTaken = s.lineTaken := rfl
@[simp] theorem State.delayUs_clockTaken (n : Nat) : (s.delayUs n).clockTaken = s.clockTaken := rfl
@[simp] theorem State.delayUs_waitedUs (n : Nat) : (s.delayUs n).waitedUs = s.waitedUs + n := rfl
@[simp] theorem State.delayUs_rdata (n : Nat) : (s.delayUs n).rdata = s.rdata := rfl
@[simp] theorem State.delayUs_params (n : Nat) : (s.delayUs n).params = s.params := rfl
@[simp] theorem State.delayUs_lineBit (n : Nat) : (s.delayUs n).lineBit = s.lineBit := rfl
@[simp] theorem State.delayUs_clockWord (n : Nat) : (s.delayUs n).clockWord = s.clockWord := rfl

/-! `State.guardEnter` -/

@[simp] theorem State.guardEnter_configType : s.guardEnter.configType = s.configType := rfl
@[simp] theorem State.guardEnter_arg : s.guardEnter.arg = s.arg := rfl
@[simp] theorem State.guardEnter_result : s.guardEnter.result = s.result := rfl
@[simp] theorem State.guardEnter_raw0 : s.guardEnter.raw0 = s.raw0 := rfl
@[simp] theorem State.guardEnter_raw1 : s.guardEnter.raw1 = s.raw1 := rfl
@[simp] theorem State.guardEnter_ts : s.guardEnter.ts = s.ts := rfl
@[simp] theorem State.guardEnter_budget : s.guardEnter.budget = s.budget := rfl
@[simp] theorem State.guardEnter_bitthr : s.guardEnter.bitthr = s.bitthr := rfl
@[simp] theorem State.guardEnter_settle : s.guardEnter.settle = s.settle := rfl
@[simp] theorem State.guardEnter_busy : s.guardEnter.busy = s.busy := rfl
@[simp] theorem State.guardEnter_init : s.guardEnter.init = s.init := rfl
@[simp] theorem State.guardEnter_valid : s.guardEnter.valid = s.valid := rfl
@[simp] theorem State.guardEnter_guardActive : s.guardEnter.guardActive = true := rfl
@[simp] theorem State.guardEnter_caldef : s.guardEnter.caldef = s.caldef := rfl
@[simp] theorem State.guardEnter_nodata : s.guardEnter.nodata = s.nodata := rfl
@[simp] theorem State.guardEnter_outcome : s.guardEnter.outcome = s.outcome := rfl
@[simp] theorem State.guardEnter_err : s.guardEnter.err = s.err := rfl
@[simp] theorem State.guardEnter_seq : s.guardEnter.seq = s.seq := rfl
@[simp] theorem State.guardEnter_op : s.guardEnter.op = s.op := rfl
@[simp] theorem State.guardEnter_force : s.guardEnter.force = s.force := rfl
@[simp] theorem State.guardEnter_fahr : s.guardEnter.fahr = s.fahr := rfl
@[simp] theorem State.guardEnter_cnt : s.guardEnter.cnt = s.cnt := rfl
@[simp] theorem State.guardEnter_bitk : s.guardEnter.bitk = s.bitk := rfl
@[simp] theorem State.guardEnter_hcnt : s.guardEnter.hcnt = s.hcnt := rfl
@[simp] theorem State.guardEnter_stage : s.guardEnter.stage = s.stage := rfl
@[simp] theorem State.guardEnter_pinMode : s.guardEnter.pinMode = s.pinMode := rfl
@[simp] theorem State.guardEnter_inst : s.guardEnter.inst = s.inst := rfl
@[simp] theorem State.guardEnter_agenda : s.guardEnter.agenda = s.agenda := rfl
@[simp] theorem State.guardEnter_lineIn : s.guardEnter.lineIn = s.lineIn := rfl
@[simp] theorem State.guardEnter_clockIn : s.guardEnter.clockIn = s.clockIn := rfl
@[simp] theorem State.guardEnter_lineTaken : s.guardEnter.lineTaken = s.lineTaken := rfl
@[simp] theorem State.guardEnter_clockTaken : s.guardEnter.clockTaken = s.clockTaken := rfl
@[simp] theorem State.guardEnter_waitedUs : s.guardEnter.waitedUs = s.waitedUs := rfl
@[simp] theorem State.guardEnter_rdata : s.guardEnter.rdata = s.rdata := rfl
@[simp] theorem State.guardEnter_params : s.guardEnter.params = s.params := rfl
@[simp] theorem State.guardEnter_lineBit : s.guardEnter.lineBit = s.lineBit := rfl
@[simp] theorem State.guardEnter_clockWord : s.guardEnter.clockWord = s.clockWord := rfl

/-! `State.guardExit` -/

@[simp] theorem State.guardExit_configType : s.guardExit.configType = s.configType := rfl
@[simp] theorem State.guardExit_arg : s.guardExit.arg = s.arg := rfl
@[simp] theorem State.guardExit_result : s.guardExit.result = s.result := rfl
@[simp] theorem State.guardExit_raw0 : s.guardExit.raw0 = s.raw0 := rfl
@[simp] theorem State.guardExit_raw1 : s.guardExit.raw1 = s.raw1 := rfl
@[simp] theorem State.guardExit_ts : s.guardExit.ts = s.ts := rfl
@[simp] theorem State.guardExit_budget : s.guardExit.budget = s.budget := rfl
@[simp] theorem State.guardExit_bitthr : s.guardExit.bitthr = s.bitthr := rfl
@[simp] theorem State.guardExit_settle : s.guardExit.settle = s.settle := rfl
@[simp] theorem State.guardExit_busy : s.guardExit.busy = s.busy := rfl
@[simp] theorem State.guardExit_init : s.guardExit.init = s.init := rfl
@[simp] theorem State.guardExit_valid : s.guardExit.valid = s.valid := rfl
@[simp] theorem State.guardExit_guardActive : s.guardExit.guardActive = false := rfl
@[simp] theorem State.guardExit_caldef : s.guardExit.caldef = s.caldef := rfl
@[simp] theorem State.guardExit_nodata : s.guardExit.nodata = s.nodata := rfl
@[simp] theorem State.guardExit_outcome : s.guardExit.outcome = s.outcome := rfl
@[simp] theorem State.guardExit_err : s.guardExit.err = s.err := rfl
@[simp] theorem State.guardExit_seq : s.guardExit.seq = s.seq := rfl
@[simp] theorem State.guardExit_op : s.guardExit.op = s.op := rfl
@[simp] theorem State.guardExit_force : s.guardExit.force = s.force := rfl
@[simp] theorem State.guardExit_fahr : s.guardExit.fahr = s.fahr := rfl
@[simp] theorem State.guardExit_cnt : s.guardExit.cnt = s.cnt := rfl
@[simp] theorem State.guardExit_bitk : s.guardExit.bitk = s.bitk := rfl
@[simp] theorem State.guardExit_hcnt : s.guardExit.hcnt = s.hcnt := rfl
@[simp] theorem State.guardExit_stage : s.guardExit.stage = s.stage := rfl
@[simp] theorem State.guardExit_pinMode : s.guardExit.pinMode = s.pinMode := rfl
@[simp] theorem State.guardExit_inst : s.guardExit.inst = s.inst := rfl
@[simp] theorem State.guardExit_agenda : s.guardExit.agenda = s.agenda := rfl
@[simp] theorem State.guardExit_lineIn : s.guardExit.lineIn = s.lineIn := rfl
@[simp] theorem State.guardExit_clockIn : s.guardExit.clockIn = s.clockIn := rfl
@[simp] theorem State.guardExit_lineTaken : s.guardExit.lineTaken = s.lineTaken := rfl
@[simp] theorem State.guardExit_clockTaken : s.guardExit.clockTaken = s.clockTaken := rfl
@[simp] theorem State.guardExit_waitedUs : s.guardExit.waitedUs = s.waitedUs := rfl
@[simp] theorem State.guardExit_rdata : s.guardExit.rdata = s.rdata := rfl
@[simp] theorem State.guardExit_params : s.guardExit.params = s.params := rfl
@[simp] theorem State.guardExit_lineBit : s.guardExit.lineBit = s.lineBit := rfl
@[simp] theorem State.guardExit_clockWord : s.guardExit.clockWord = s.clockWord := rfl

/-! `State.lineNext` -/

@[simp] theorem State.lineNext_configType : s.lineNext.configType = s.configType := rfl
@[simp] theorem State.lineNext_arg : s.lineNext.arg = s.arg := rfl
@[simp] theorem State.lineNext_result : s.lineNext.result = s.result := rfl
@[simp] theorem State.lineNext_raw0 : s.lineNext.raw0 = s.raw0 := rfl
@[simp] theorem State.lineNext_raw1 : s.lineNext.raw1 = s.raw1 := rfl
@[simp] theorem State.lineNext_ts : s.lineNext.ts = s.ts := rfl
@[simp] theorem State.lineNext_budget : s.lineNext.budget = s.budget := rfl
@[simp] theorem State.lineNext_bitthr : s.lineNext.bitthr = s.bitthr := rfl
@[simp] theorem State.lineNext_settle : s.lineNext.settle = s.settle := rfl
@[simp] theorem State.lineNext_busy : s.lineNext.busy = s.busy := rfl
@[simp] theorem State.lineNext_init : s.lineNext.init = s.init := rfl
@[simp] theorem State.lineNext_valid : s.lineNext.valid = s.valid := rfl
@[simp] theorem State.lineNext_guardActive : s.lineNext.guardActive = s.guardActive := rfl
@[simp] theorem State.lineNext_caldef : s.lineNext.caldef = s.caldef := rfl
@[simp] theorem State.lineNext_nodata : s.lineNext.nodata = s.nodata := rfl
@[simp] theorem State.lineNext_outcome : s.lineNext.outcome = s.outcome := rfl
@[simp] theorem State.lineNext_err : s.lineNext.err = s.err := rfl
@[simp] theorem State.lineNext_seq : s.lineNext.seq = s.seq := rfl
@[simp] theorem State.lineNext_op : s.lineNext.op = s.op := rfl
@[simp] theorem State.lineNext_force : s.lineNext.force = s.force := rfl
@[simp] theorem State.lineNext_fahr : s.lineNext.fahr = s.fahr := rfl
@[simp] theorem State.lineNext_cnt : s.lineNext.cnt = s.cnt := rfl
@[simp] theorem State.lineNext_bitk : s.lineNext.bitk = s.bitk := rfl
@[simp] theorem State.lineNext_hcnt : s.lineNext.hcnt = s.hcnt := rfl
@[simp] theorem State.lineNext_stage : s.lineNext.stage = s.stage := rfl
@[simp] theorem State.lineNext_pinMode : s.lineNext.pinMode = s.pinMode := rfl
@[simp] theorem State.lineNext_inst : s.lineNext.inst = s.inst := rfl
@[simp] theorem State.lineNext_agenda : s.lineNext.agenda = s.agenda := rfl
@[simp] theorem State.lineNext_lineIn : s.lineNext.lineIn = s.lineIn.tail := rfl
@[simp] theorem State.lineNext_clockIn : s.lineNext.clockIn = s.clockIn := rfl
@[simp] theorem State.lineNext_lineTaken : s.lineNext.lineTaken = s.lineTaken + 1 := rfl
@[simp] theorem State.lineNext_clockTaken : s.lineNext.clockTaken = s.clockTaken := rfl
@[simp] theorem State.lineNext_waitedUs : s.lineNext.waitedUs = s.waitedUs := rfl
@[simp] theorem State.lineNext_rdata : s.lineNext.rdata = s.rdata := rfl
@[simp] theorem State.lineNext_params : s.lineNext.params = s.params := rfl
@[simp] theorem State.lineNext_clockWord : s.lineNext.clockWord = s.clockWord := rfl

/-! `State.clockNext` -/

@[simp] theorem State.clockNext_configType : s.clockNext.configType = s.configType := rfl
@[simp] theorem State.clockNext_arg : s.clockNext.arg = s.arg := rfl
@[simp] theorem State.clockNext_result : s.clockNext.result = s.result := rfl
@[simp] theorem State.clockNext_raw0 : s.clockNext.raw0 = s.raw0 := rfl
@[simp] theorem State.clockNext_raw1 : s.clockNext.raw1 = s.raw1 := rfl
@[simp] theorem State.clockNext_ts : s.clockNext.ts = s.ts := rfl
@[simp] theorem State.clockNext_budget : s.clockNext.budget = s.budget := rfl
@[simp] theorem State.clockNext_bitthr : s.clockNext.bitthr = s.bitthr := rfl
@[simp] theorem State.clockNext_settle : s.clockNext.settle = s.settle := rfl
@[simp] theorem State.clockNext_busy : s.clockNext.busy = s.busy := rfl
@[simp] theorem State.clockNext_init : s.clockNext.init = s.init := rfl
@[simp] theorem State.clockNext_valid : s.clockNext.valid = s.valid := rfl
@[simp] theorem State.clockNext_guardActive : s.clockNext.guardActive = s.guardActive := rfl
@[simp] theorem State.clockNext_caldef : s.clockNext.caldef = s.caldef := rfl
@[simp] theorem State.clockNext_nodata : s.clockNext.nodata = s.nodata := rfl
@[simp] theorem State.clockNext_outcome : s.clockNext.outcome = s.outcome := rfl
@[simp] theorem State.clockNext_err : s.clockNext.err = s.err := rfl
@[simp] theorem State.clockNext_seq : s.clockNext.seq = s.seq := rfl
@[simp] theorem State.clockNext_op : s.clockNext.op = s.op := rfl
@[simp] theorem State.clockNext_force : s.clockNext.force = s.force := rfl
@[simp] theorem State.clockNext_fahr : s.clockNext.fahr = s.fahr := rfl
@[simp] theorem State.clockNext_cnt : s.clockNext.cnt = s.cnt := rfl
@[simp] theorem State.clockNext_bitk : s.clockNext.bitk = s.bitk := rfl
@[simp] theorem State.clockNext_hcnt : s.clockNext.hcnt = s.hcnt := rfl
@[simp] theorem State.clockNext_stage : s.clockNext.stage = s.stage := rfl
@[simp] theorem State.clockNext_pinMode : s.clockNext.pinMode = s.pinMode := rfl
@[simp] theorem State.clockNext_inst : s.clockNext.inst = s.inst := rfl
@[simp] theorem State.clockNext_agenda : s.clockNext.agenda = s.agenda := rfl
@[simp] theorem State.clockNext_lineIn : s.clockNext.lineIn = s.lineIn := rfl
@[simp] theorem State.clockNext_clockIn : s.clockNext.clockIn = s.clockIn.tail := rfl
@[simp] theorem State.clockNext_lineTaken : s.clockNext.lineTaken = s.lineTaken := rfl
@[simp] theorem State.clockNext_clockTaken : s.clockNext.clockTaken = s.clockTaken + 1 := rfl
@[simp] theorem State.clockNext_waitedUs : s.clockNext.waitedUs = s.waitedUs := rfl
@[simp] theorem State.clockNext_rdata : s.clockNext.rdata = s.rdata := rfl
@[simp] theorem State.clockNext_params : s.clockNext.params = s.params := rfl
@[simp] theorem State.clockNext_lineBit : s.clockNext.lineBit = s.lineBit := rfl

/-! `State.setCnt` -/

@[simp] theorem State.setCnt_configType (n : Word) : (s.setCnt n).configType = s.configType := rfl
@[simp] theorem State.setCnt_arg (n : Word) : (s.setCnt n).arg = s.arg := rfl
@[simp] theorem State.setCnt_result (n : Word) : (s.setCnt n).result = s.result := rfl
@[simp] theorem State.setCnt_raw0 (n : Word) : (s.setCnt n).raw0 = s.raw0 := rfl
@[simp] theorem State.setCnt_raw1 (n : Word) : (s.setCnt n).raw1 = s.raw1 := rfl
@[simp] theorem State.setCnt_ts (n : Word) : (s.setCnt n).ts = s.ts := rfl
@[simp] theorem State.setCnt_budget (n : Word) : (s.setCnt n).budget = s.budget := rfl
@[simp] theorem State.setCnt_bitthr (n : Word) : (s.setCnt n).bitthr = s.bitthr := rfl
@[simp] theorem State.setCnt_settle (n : Word) : (s.setCnt n).settle = s.settle := rfl
@[simp] theorem State.setCnt_busy (n : Word) : (s.setCnt n).busy = s.busy := rfl
@[simp] theorem State.setCnt_init (n : Word) : (s.setCnt n).init = s.init := rfl
@[simp] theorem State.setCnt_valid (n : Word) : (s.setCnt n).valid = s.valid := rfl
@[simp] theorem State.setCnt_guardActive (n : Word) : (s.setCnt n).guardActive = s.guardActive := rfl
@[simp] theorem State.setCnt_caldef (n : Word) : (s.setCnt n).caldef = s.caldef := rfl
@[simp] theorem State.setCnt_nodata (n : Word) : (s.setCnt n).nodata = s.nodata := rfl
@[simp] theorem State.setCnt_outcome (n : Word) : (s.setCnt n).outcome = s.outcome := rfl
@[simp] theorem State.setCnt_err (n : Word) : (s.setCnt n).err = s.err := rfl
@[simp] theorem State.setCnt_seq (n : Word) : (s.setCnt n).seq = s.seq := rfl
@[simp] theorem State.setCnt_op (n : Word) : (s.setCnt n).op = s.op := rfl
@[simp] theorem State.setCnt_force (n : Word) : (s.setCnt n).force = s.force := rfl
@[simp] theorem State.setCnt_fahr (n : Word) : (s.setCnt n).fahr = s.fahr := rfl
@[simp] theorem State.setCnt_cnt (n : Word) : (s.setCnt n).cnt = n := rfl
@[simp] theorem State.setCnt_bitk (n : Word) : (s.setCnt n).bitk = s.bitk := rfl
@[simp] theorem State.setCnt_hcnt (n : Word) : (s.setCnt n).hcnt = s.hcnt := rfl
@[simp] theorem State.setCnt_stage (n : Word) : (s.setCnt n).stage = s.stage := rfl
@[simp] theorem State.setCnt_pinMode (n : Word) : (s.setCnt n).pinMode = s.pinMode := rfl
@[simp] theorem State.setCnt_inst (n : Word) : (s.setCnt n).inst = s.inst := rfl
@[simp] theorem State.setCnt_agenda (n : Word) : (s.setCnt n).agenda = s.agenda := rfl
@[simp] theorem State.setCnt_lineIn (n : Word) : (s.setCnt n).lineIn = s.lineIn := rfl
@[simp] theorem State.setCnt_clockIn (n : Word) : (s.setCnt n).clockIn = s.clockIn := rfl
@[simp] theorem State.setCnt_lineTaken (n : Word) : (s.setCnt n).lineTaken = s.lineTaken := rfl
@[simp] theorem State.setCnt_clockTaken (n : Word) : (s.setCnt n).clockTaken = s.clockTaken := rfl
@[simp] theorem State.setCnt_waitedUs (n : Word) : (s.setCnt n).waitedUs = s.waitedUs := rfl
@[simp] theorem State.setCnt_rdata (n : Word) : (s.setCnt n).rdata = s.rdata := rfl
@[simp] theorem State.setCnt_params (n : Word) : (s.setCnt n).params = s.params := rfl
@[simp] theorem State.setCnt_lineBit (n : Word) : (s.setCnt n).lineBit = s.lineBit := rfl
@[simp] theorem State.setCnt_clockWord (n : Word) : (s.setCnt n).clockWord = s.clockWord := rfl

/-! `State.setHcnt` -/

@[simp] theorem State.setHcnt_configType (n : Word) : (s.setHcnt n).configType = s.configType := rfl
@[simp] theorem State.setHcnt_arg (n : Word) : (s.setHcnt n).arg = s.arg := rfl
@[simp] theorem State.setHcnt_result (n : Word) : (s.setHcnt n).result = s.result := rfl
@[simp] theorem State.setHcnt_raw0 (n : Word) : (s.setHcnt n).raw0 = s.raw0 := rfl
@[simp] theorem State.setHcnt_raw1 (n : Word) : (s.setHcnt n).raw1 = s.raw1 := rfl
@[simp] theorem State.setHcnt_ts (n : Word) : (s.setHcnt n).ts = s.ts := rfl
@[simp] theorem State.setHcnt_budget (n : Word) : (s.setHcnt n).budget = s.budget := rfl
@[simp] theorem State.setHcnt_bitthr (n : Word) : (s.setHcnt n).bitthr = s.bitthr := rfl
@[simp] theorem State.setHcnt_settle (n : Word) : (s.setHcnt n).settle = s.settle := rfl
@[simp] theorem State.setHcnt_busy (n : Word) : (s.setHcnt n).busy = s.busy := rfl
@[simp] theorem State.setHcnt_init (n : Word) : (s.setHcnt n).init = s.init := rfl
@[simp] theorem State.setHcnt_valid (n : Word) : (s.setHcnt n).valid = s.valid := rfl
@[simp] theorem State.setHcnt_guardActive (n : Word) : (s.setHcnt n).guardActive = s.guardActive := rfl
@[simp] theorem State.setHcnt_caldef (n : Word) : (s.setHcnt n).caldef = s.caldef := rfl
@[simp] theorem State.setHcnt_nodata (n : Word) : (s.setHcnt n).nodata = s.nodata := rfl
@[simp] theorem State.setHcnt_outcome (n : Word) : (s.setHcnt n).outcome = s.outcome := rfl
@[simp] theorem State.setHcnt_err (n : Word) : (s.setHcnt n).err = s.err := rfl
@[simp] theorem State.setHcnt_seq (n : Word) : (s.setHcnt n).seq = s.seq := rfl
@[simp] theorem State.setHcnt_op (n : Word) : (s.setHcnt n).op = s.op := rfl
@[simp] theorem State.setHcnt_force (n : Word) : (s.setHcnt n).force = s.force := rfl
@[simp] theorem State.setHcnt_fahr (n : Word) : (s.setHcnt n).fahr = s.fahr := rfl
@[simp] theorem State.setHcnt_cnt (n : Word) : (s.setHcnt n).cnt = s.cnt := rfl
@[simp] theorem State.setHcnt_bitk (n : Word) : (s.setHcnt n).bitk = s.bitk := rfl
@[simp] theorem State.setHcnt_hcnt (n : Word) : (s.setHcnt n).hcnt = n := rfl
@[simp] theorem State.setHcnt_stage (n : Word) : (s.setHcnt n).stage = s.stage := rfl
@[simp] theorem State.setHcnt_pinMode (n : Word) : (s.setHcnt n).pinMode = s.pinMode := rfl
@[simp] theorem State.setHcnt_inst (n : Word) : (s.setHcnt n).inst = s.inst := rfl
@[simp] theorem State.setHcnt_agenda (n : Word) : (s.setHcnt n).agenda = s.agenda := rfl
@[simp] theorem State.setHcnt_lineIn (n : Word) : (s.setHcnt n).lineIn = s.lineIn := rfl
@[simp] theorem State.setHcnt_clockIn (n : Word) : (s.setHcnt n).clockIn = s.clockIn := rfl
@[simp] theorem State.setHcnt_lineTaken (n : Word) : (s.setHcnt n).lineTaken = s.lineTaken := rfl
@[simp] theorem State.setHcnt_clockTaken (n : Word) : (s.setHcnt n).clockTaken = s.clockTaken := rfl
@[simp] theorem State.setHcnt_waitedUs (n : Word) : (s.setHcnt n).waitedUs = s.waitedUs := rfl
@[simp] theorem State.setHcnt_rdata (n : Word) : (s.setHcnt n).rdata = s.rdata := rfl
@[simp] theorem State.setHcnt_params (n : Word) : (s.setHcnt n).params = s.params := rfl
@[simp] theorem State.setHcnt_lineBit (n : Word) : (s.setHcnt n).lineBit = s.lineBit := rfl
@[simp] theorem State.setHcnt_clockWord (n : Word) : (s.setHcnt n).clockWord = s.clockWord := rfl

/-! `State.setStage` -/

@[simp] theorem State.setStage_configType (x : Sample) : (s.setStage x).configType = s.configType := rfl
@[simp] theorem State.setStage_arg (x : Sample) : (s.setStage x).arg = s.arg := rfl
@[simp] theorem State.setStage_result (x : Sample) : (s.setStage x).result = s.result := rfl
@[simp] theorem State.setStage_raw0 (x : Sample) : (s.setStage x).raw0 = s.raw0 := rfl
@[simp] theorem State.setStage_raw1 (x : Sample) : (s.setStage x).raw1 = s.raw1 := rfl
@[simp] theorem State.setStage_ts (x : Sample) : (s.setStage x).ts = s.ts := rfl
@[simp] theorem State.setStage_budget (x : Sample) : (s.setStage x).budget = s.budget := rfl
@[simp] theorem State.setStage_bitthr (x : Sample) : (s.setStage x).bitthr = s.bitthr := rfl
@[simp] theorem State.setStage_settle (x : Sample) : (s.setStage x).settle = s.settle := rfl
@[simp] theorem State.setStage_busy (x : Sample) : (s.setStage x).busy = s.busy := rfl
@[simp] theorem State.setStage_init (x : Sample) : (s.setStage x).init = s.init := rfl
@[simp] theorem State.setStage_valid (x : Sample) : (s.setStage x).valid = s.valid := rfl
@[simp] theorem State.setStage_guardActive (x : Sample) : (s.setStage x).guardActive = s.guardActive := rfl
@[simp] theorem State.setStage_caldef (x : Sample) : (s.setStage x).caldef = s.caldef := rfl
@[simp] theorem State.setStage_nodata (x : Sample) : (s.setStage x).nodata = s.nodata := rfl
@[simp] theorem State.setStage_outcome (x : Sample) : (s.setStage x).outcome = s.outcome := rfl
@[simp] theorem State.setStage_err (x : Sample) : (s.setStage x).err = s.err := rfl
@[simp] theorem State.setStage_seq (x : Sample) : (s.setStage x).seq = s.seq := rfl
@[simp] theorem State.setStage_op (x : Sample) : (s.setStage x).op = s.op := rfl
@[simp] theorem State.setStage_force (x : Sample) : (s.setStage x).force = s.force := rfl
@[simp] theorem State.setStage_fahr (x : Sample) : (s.setStage x).fahr = s.fahr := rfl
@[simp] theorem State.setStage_cnt (x : Sample) : (s.setStage x).cnt = s.cnt := rfl
@[simp] theorem State.setStage_bitk (x : Sample) : (s.setStage x).bitk = s.bitk := rfl
@[simp] theorem State.setStage_hcnt (x : Sample) : (s.setStage x).hcnt = s.hcnt := rfl
@[simp] theorem State.setStage_stage (x : Sample) : (s.setStage x).stage = x := rfl
@[simp] theorem State.setStage_pinMode (x : Sample) : (s.setStage x).pinMode = s.pinMode := rfl
@[simp] theorem State.setStage_inst (x : Sample) : (s.setStage x).inst = s.inst := rfl
@[simp] theorem State.setStage_agenda (x : Sample) : (s.setStage x).agenda = s.agenda := rfl
@[simp] theorem State.setStage_lineIn (x : Sample) : (s.setStage x).lineIn = s.lineIn := rfl
@[simp] theorem State.setStage_clockIn (x : Sample) : (s.setStage x).clockIn = s.clockIn := rfl
@[simp] theorem State.setStage_lineTaken (x : Sample) : (s.setStage x).lineTaken = s.lineTaken := rfl
@[simp] theorem State.setStage_clockTaken (x : Sample) : (s.setStage x).clockTaken = s.clockTaken := rfl
@[simp] theorem State.setStage_waitedUs (x : Sample) : (s.setStage x).waitedUs = s.waitedUs := rfl
@[simp] theorem State.setStage_rdata (x : Sample) : (s.setStage x).rdata = s.rdata := rfl
@[simp] theorem State.setStage_params (x : Sample) : (s.setStage x).params = s.params := rfl
@[simp] theorem State.setStage_lineBit (x : Sample) : (s.setStage x).lineBit = s.lineBit := rfl
@[simp] theorem State.setStage_clockWord (x : Sample) : (s.setStage x).clockWord = s.clockWord := rfl

/-! `State.setBitk` -/

@[simp] theorem State.setBitk_configType (k : Fin 40) : (s.setBitk k).configType = s.configType := rfl
@[simp] theorem State.setBitk_arg (k : Fin 40) : (s.setBitk k).arg = s.arg := rfl
@[simp] theorem State.setBitk_result (k : Fin 40) : (s.setBitk k).result = s.result := rfl
@[simp] theorem State.setBitk_raw0 (k : Fin 40) : (s.setBitk k).raw0 = s.raw0 := rfl
@[simp] theorem State.setBitk_raw1 (k : Fin 40) : (s.setBitk k).raw1 = s.raw1 := rfl
@[simp] theorem State.setBitk_ts (k : Fin 40) : (s.setBitk k).ts = s.ts := rfl
@[simp] theorem State.setBitk_budget (k : Fin 40) : (s.setBitk k).budget = s.budget := rfl
@[simp] theorem State.setBitk_bitthr (k : Fin 40) : (s.setBitk k).bitthr = s.bitthr := rfl
@[simp] theorem State.setBitk_settle (k : Fin 40) : (s.setBitk k).settle = s.settle := rfl
@[simp] theorem State.setBitk_busy (k : Fin 40) : (s.setBitk k).busy = s.busy := rfl
@[simp] theorem State.setBitk_init (k : Fin 40) : (s.setBitk k).init = s.init := rfl
@[simp] theorem State.setBitk_valid (k : Fin 40) : (s.setBitk k).valid = s.valid := rfl
@[simp] theorem State.setBitk_guardActive (k : Fin 40) : (s.setBitk k).guardActive = s.guardActive := rfl
@[simp] theorem State.setBitk_caldef (k : Fin 40) : (s.setBitk k).caldef = s.caldef := rfl
@[simp] theorem State.setBitk_nodata (k : Fin 40) : (s.setBitk k).nodata = s.nodata := rfl
@[simp] theorem State.setBitk_outcome (k : Fin 40) : (s.setBitk k).outcome = s.outcome := rfl
@[simp] theorem State.setBitk_err (k : Fin 40) : (s.setBitk k).err = s.err := rfl
@[simp] theorem State.setBitk_seq (k : Fin 40) : (s.setBitk k).seq = s.seq := rfl
@[simp] theorem State.setBitk_op (k : Fin 40) : (s.setBitk k).op = s.op := rfl
@[simp] theorem State.setBitk_force (k : Fin 40) : (s.setBitk k).force = s.force := rfl
@[simp] theorem State.setBitk_fahr (k : Fin 40) : (s.setBitk k).fahr = s.fahr := rfl
@[simp] theorem State.setBitk_cnt (k : Fin 40) : (s.setBitk k).cnt = s.cnt := rfl
@[simp] theorem State.setBitk_bitk (k : Fin 40) : (s.setBitk k).bitk = k := rfl
@[simp] theorem State.setBitk_hcnt (k : Fin 40) : (s.setBitk k).hcnt = s.hcnt := rfl
@[simp] theorem State.setBitk_stage (k : Fin 40) : (s.setBitk k).stage = s.stage := rfl
@[simp] theorem State.setBitk_pinMode (k : Fin 40) : (s.setBitk k).pinMode = s.pinMode := rfl
@[simp] theorem State.setBitk_inst (k : Fin 40) : (s.setBitk k).inst = s.inst := rfl
@[simp] theorem State.setBitk_agenda (k : Fin 40) : (s.setBitk k).agenda = s.agenda := rfl
@[simp] theorem State.setBitk_lineIn (k : Fin 40) : (s.setBitk k).lineIn = s.lineIn := rfl
@[simp] theorem State.setBitk_clockIn (k : Fin 40) : (s.setBitk k).clockIn = s.clockIn := rfl
@[simp] theorem State.setBitk_lineTaken (k : Fin 40) : (s.setBitk k).lineTaken = s.lineTaken := rfl
@[simp] theorem State.setBitk_clockTaken (k : Fin 40) : (s.setBitk k).clockTaken = s.clockTaken := rfl
@[simp] theorem State.setBitk_waitedUs (k : Fin 40) : (s.setBitk k).waitedUs = s.waitedUs := rfl
@[simp] theorem State.setBitk_rdata (k : Fin 40) : (s.setBitk k).rdata = s.rdata := rfl
@[simp] theorem State.setBitk_params (k : Fin 40) : (s.setBitk k).params = s.params := rfl
@[simp] theorem State.setBitk_lineBit (k : Fin 40) : (s.setBitk k).lineBit = s.lineBit := rfl
@[simp] theorem State.setBitk_clockWord (k : Fin 40) : (s.setBitk k).clockWord = s.clockWord := rfl

/-! `writeArg` -/

@[simp] theorem writeArg_configType (w : Word) : (writeArg w s).configType = s.configType := rfl
@[simp] theorem writeArg_arg (w : Word) : (writeArg w s).arg = w := rfl
@[simp] theorem writeArg_result (w : Word) : (writeArg w s).result = s.result := rfl
@[simp] theorem writeArg_raw0 (w : Word) : (writeArg w s).raw0 = s.raw0 := rfl
@[simp] theorem writeArg_raw1 (w : Word) : (writeArg w s).raw1 = s.raw1 := rfl
@[simp] theorem writeArg_ts (w : Word) : (writeArg w s).ts = s.ts := rfl
@[simp] theorem writeArg_budget (w : Word) : (writeArg w s).budget = s.budget := rfl
@[simp] theorem writeArg_bitthr (w : Word) : (writeArg w s).bitthr = s.bitthr := rfl
@[simp] theorem writeArg_settle (w : Word) : (writeArg w s).settle = s.settle := rfl
@[simp] theorem writeArg_busy (w : Word) : (writeArg w s).busy = s.busy := rfl
@[simp] theorem writeArg_init (w : Word) : (writeArg w s).init = s.init := rfl
@[simp] theorem writeArg_valid (w : Word) : (writeArg w s).valid = s.valid := rfl
@[simp] theorem writeArg_guardActive (w : Word) : (writeArg w s).guardActive = s.guardActive := rfl
@[simp] theorem writeArg_caldef (w : Word) : (writeArg w s).caldef = s.caldef := rfl
@[simp] theorem writeArg_nodata (w : Word) : (writeArg w s).nodata = s.nodata := rfl
@[simp] theorem writeArg_outcome (w : Word) : (writeArg w s).outcome = s.outcome := rfl
@[simp] theorem writeArg_err (w : Word) : (writeArg w s).err = s.err := rfl
@[simp] theorem writeArg_seq (w : Word) : (writeArg w s).seq = s.seq := rfl
@[simp] theorem writeArg_op (w : Word) : (writeArg w s).op = s.op := rfl
@[simp] theorem writeArg_force (w : Word) : (writeArg w s).force = s.force := rfl
@[simp] theorem writeArg_fahr (w : Word) : (writeArg w s).fahr = s.fahr := rfl
@[simp] theorem writeArg_cnt (w : Word) : (writeArg w s).cnt = s.cnt := rfl
@[simp] theorem writeArg_bitk (w : Word) : (writeArg w s).bitk = s.bitk := rfl
@[simp] theorem writeArg_hcnt (w : Word) : (writeArg w s).hcnt = s.hcnt := rfl
@[simp] theorem writeArg_stage (w : Word) : (writeArg w s).stage = s.stage := rfl
@[simp] theorem writeArg_pinMode (w : Word) : (writeArg w s).pinMode = s.pinMode := rfl
@[simp] theorem writeArg_inst (w : Word) : (writeArg w s).inst = s.inst := rfl
@[simp] theorem writeArg_agenda (w : Word) : (writeArg w s).agenda = s.agenda := rfl
@[simp] theorem writeArg_lineIn (w : Word) : (writeArg w s).lineIn = s.lineIn := rfl
@[simp] theorem writeArg_clockIn (w : Word) : (writeArg w s).clockIn = s.clockIn := rfl
@[simp] theorem writeArg_lineTaken (w : Word) : (writeArg w s).lineTaken = s.lineTaken := rfl
@[simp] theorem writeArg_clockTaken (w : Word) : (writeArg w s).clockTaken = s.clockTaken := rfl
@[simp] theorem writeArg_waitedUs (w : Word) : (writeArg w s).waitedUs = s.waitedUs := rfl
@[simp] theorem writeArg_rdata (w : Word) : (writeArg w s).rdata = s.rdata := rfl
@[simp] theorem writeArg_params (w : Word) : (writeArg w s).params = s.params := rfl
@[simp] theorem writeArg_lineBit (w : Word) : (writeArg w s).lineBit = s.lineBit := rfl
@[simp] theorem writeArg_clockWord (w : Word) : (writeArg w s).clockWord = s.clockWord := rfl

/-! `abort` -/

@[simp] theorem abort_configType (c : AbortCause) : (abort c s).configType = s.configType := rfl
@[simp] theorem abort_arg (c : AbortCause) : (abort c s).arg = s.arg := rfl
@[simp] theorem abort_result (c : AbortCause) : (abort c s).result = s.result := rfl
@[simp] theorem abort_raw0 (c : AbortCause) : (abort c s).raw0 = s.raw0 := rfl
@[simp] theorem abort_raw1 (c : AbortCause) : (abort c s).raw1 = s.raw1 := rfl
@[simp] theorem abort_ts (c : AbortCause) : (abort c s).ts = s.ts := rfl
@[simp] theorem abort_budget (c : AbortCause) : (abort c s).budget = s.budget := rfl
@[simp] theorem abort_bitthr (c : AbortCause) : (abort c s).bitthr = s.bitthr := rfl
@[simp] theorem abort_settle (c : AbortCause) : (abort c s).settle = s.settle := rfl
@[simp] theorem abort_busy (c : AbortCause) : (abort c s).busy = s.busy := rfl
@[simp] theorem abort_init (c : AbortCause) : (abort c s).init = s.init := rfl
@[simp] theorem abort_valid (c : AbortCause) : (abort c s).valid = s.valid := rfl
@[simp] theorem abort_guardActive (c : AbortCause) : (abort c s).guardActive = false := rfl
@[simp] theorem abort_caldef (c : AbortCause) : (abort c s).caldef = s.caldef := rfl
@[simp] theorem abort_nodata (c : AbortCause) : (abort c s).nodata = s.nodata := rfl
@[simp] theorem abort_outcome (c : AbortCause) : (abort c s).outcome = .failed := rfl
@[simp] theorem abort_err (c : AbortCause) : (abort c s).err = c.code := rfl
@[simp] theorem abort_seq (c : AbortCause) : (abort c s).seq = .run .rDecode := rfl
@[simp] theorem abort_op (c : AbortCause) : (abort c s).op = s.op := rfl
@[simp] theorem abort_force (c : AbortCause) : (abort c s).force = s.force := rfl
@[simp] theorem abort_fahr (c : AbortCause) : (abort c s).fahr = s.fahr := rfl
@[simp] theorem abort_cnt (c : AbortCause) : (abort c s).cnt = s.cnt := rfl
@[simp] theorem abort_bitk (c : AbortCause) : (abort c s).bitk = s.bitk := rfl
@[simp] theorem abort_hcnt (c : AbortCause) : (abort c s).hcnt = s.hcnt := rfl
@[simp] theorem abort_stage (c : AbortCause) : (abort c s).stage = s.stage := rfl
@[simp] theorem abort_pinMode (c : AbortCause) : (abort c s).pinMode = s.pinMode := rfl
@[simp] theorem abort_inst (c : AbortCause) : (abort c s).inst = s.inst := rfl
@[simp] theorem abort_agenda (c : AbortCause) : (abort c s).agenda = s.agenda := rfl
@[simp] theorem abort_lineIn (c : AbortCause) : (abort c s).lineIn = s.lineIn := rfl
@[simp] theorem abort_clockIn (c : AbortCause) : (abort c s).clockIn = s.clockIn := rfl
@[simp] theorem abort_lineTaken (c : AbortCause) : (abort c s).lineTaken = s.lineTaken := rfl
@[simp] theorem abort_clockTaken (c : AbortCause) : (abort c s).clockTaken = s.clockTaken := rfl
@[simp] theorem abort_waitedUs (c : AbortCause) : (abort c s).waitedUs = s.waitedUs := rfl
@[simp] theorem abort_rdata (c : AbortCause) : (abort c s).rdata = s.rdata := rfl
@[simp] theorem abort_params (c : AbortCause) : (abort c s).params = s.params := rfl
@[simp] theorem abort_lineBit (c : AbortCause) : (abort c s).lineBit = s.lineBit := rfl
@[simp] theorem abort_clockWord (c : AbortCause) : (abort c s).clockWord = s.clockWord := rfl

/-! `finishAccessor` -/

@[simp] theorem finishAccessor_configType (w : Word) (b : Bool) : (finishAccessor w b s).configType = s.configType := rfl
@[simp] theorem finishAccessor_arg (w : Word) (b : Bool) : (finishAccessor w b s).arg = s.arg := rfl
@[simp] theorem finishAccessor_result (w : Word) (b : Bool) : (finishAccessor w b s).result = w := rfl
@[simp] theorem finishAccessor_raw0 (w : Word) (b : Bool) : (finishAccessor w b s).raw0 = s.raw0 := rfl
@[simp] theorem finishAccessor_raw1 (w : Word) (b : Bool) : (finishAccessor w b s).raw1 = s.raw1 := rfl
@[simp] theorem finishAccessor_ts (w : Word) (b : Bool) : (finishAccessor w b s).ts = s.ts := rfl
@[simp] theorem finishAccessor_budget (w : Word) (b : Bool) : (finishAccessor w b s).budget = s.budget := rfl
@[simp] theorem finishAccessor_bitthr (w : Word) (b : Bool) : (finishAccessor w b s).bitthr = s.bitthr := rfl
@[simp] theorem finishAccessor_settle (w : Word) (b : Bool) : (finishAccessor w b s).settle = s.settle := rfl
@[simp] theorem finishAccessor_busy (w : Word) (b : Bool) : (finishAccessor w b s).busy = false := rfl
@[simp] theorem finishAccessor_init (w : Word) (b : Bool) : (finishAccessor w b s).init = s.init := rfl
@[simp] theorem finishAccessor_valid (w : Word) (b : Bool) : (finishAccessor w b s).valid = s.valid := rfl
@[simp] theorem finishAccessor_guardActive (w : Word) (b : Bool) : (finishAccessor w b s).guardActive = s.guardActive := rfl
@[simp] theorem finishAccessor_caldef (w : Word) (b : Bool) : (finishAccessor w b s).caldef = s.caldef := rfl
@[simp] theorem finishAccessor_nodata (w : Word) (b : Bool) : (finishAccessor w b s).nodata = b := rfl
@[simp] theorem finishAccessor_outcome (w : Word) (b : Bool) : (finishAccessor w b s).outcome = s.outcome := rfl
@[simp] theorem finishAccessor_err (w : Word) (b : Bool) : (finishAccessor w b s).err = s.err := rfl
@[simp] theorem finishAccessor_seq (w : Word) (b : Bool) : (finishAccessor w b s).seq = .idle := rfl
@[simp] theorem finishAccessor_op (w : Word) (b : Bool) : (finishAccessor w b s).op = s.op := rfl
@[simp] theorem finishAccessor_force (w : Word) (b : Bool) : (finishAccessor w b s).force = s.force := rfl
@[simp] theorem finishAccessor_fahr (w : Word) (b : Bool) : (finishAccessor w b s).fahr = s.fahr := rfl
@[simp] theorem finishAccessor_cnt (w : Word) (b : Bool) : (finishAccessor w b s).cnt = s.cnt := rfl
@[simp] theorem finishAccessor_bitk (w : Word) (b : Bool) : (finishAccessor w b s).bitk = s.bitk := rfl
@[simp] theorem finishAccessor_hcnt (w : Word) (b : Bool) : (finishAccessor w b s).hcnt = s.hcnt := rfl
@[simp] theorem finishAccessor_stage (w : Word) (b : Bool) : (finishAccessor w b s).stage = s.stage := rfl
@[simp] theorem finishAccessor_pinMode (w : Word) (b : Bool) : (finishAccessor w b s).pinMode = s.pinMode := rfl
@[simp] theorem finishAccessor_inst (w : Word) (b : Bool) : (finishAccessor w b s).inst = s.inst := rfl
@[simp] theorem finishAccessor_agenda (w : Word) (b : Bool) : (finishAccessor w b s).agenda = s.agenda := rfl
@[simp] theorem finishAccessor_lineIn (w : Word) (b : Bool) : (finishAccessor w b s).lineIn = s.lineIn := rfl
@[simp] theorem finishAccessor_clockIn (w : Word) (b : Bool) : (finishAccessor w b s).clockIn = s.clockIn := rfl
@[simp] theorem finishAccessor_lineTaken (w : Word) (b : Bool) : (finishAccessor w b s).lineTaken = s.lineTaken := rfl
@[simp] theorem finishAccessor_clockTaken (w : Word) (b : Bool) : (finishAccessor w b s).clockTaken = s.clockTaken := rfl
@[simp] theorem finishAccessor_waitedUs (w : Word) (b : Bool) : (finishAccessor w b s).waitedUs = s.waitedUs := rfl
@[simp] theorem finishAccessor_rdata (w : Word) (b : Bool) : (finishAccessor w b s).rdata = s.rdata := rfl
@[simp] theorem finishAccessor_params (w : Word) (b : Bool) : (finishAccessor w b s).params = s.params := rfl
@[simp] theorem finishAccessor_lineBit (w : Word) (b : Bool) : (finishAccessor w b s).lineBit = s.lineBit := rfl
@[simp] theorem finishAccessor_clockWord (w : Word) (b : Bool) : (finishAccessor w b s).clockWord = s.clockWord := rfl

end Sys2Proof.Machine
end

