-- ==== Sys2Proof/Laws/Ops.lean ====
section
/-! SUPPORT. What each shared operation can do, said once: the agents' answers, one sample of a measurement, the
sequencer's move, the cache's bytes, the classification of an access, and the case analysis of a step. -/

namespace Sys2Proof.Machine

/-! ### The agents' answers -/

theorem lineBit_of_cons {s : State} {b : Bool} {rest : List Bool} (h : s.lineIn = b :: rest) : s.lineBit = b := by
  simp [State.lineBit, h]

theorem clockWord_of_cons {s : State} {w : Word} {rest : List Word} (h : s.clockIn = w :: rest) :
    s.clockWord = w := by
  simp [State.clockWord, h]

/-! ### One sample of a measurement -/

/-- The three things one sample can do (`41_refresh.md` R160). -/
theorem measureSample_cases (lvl : Bool) (bound : Word) (s : State) :
    (s.lineBit ≠ lvl ∧ measureSample lvl bound s = (some (.value s.cnt), s.lineNext)) ∨
    (s.lineBit = lvl ∧ bound ≤ s.cnt ∧ measureSample lvl bound s = (some .timeout, s.lineNext)) ∨
    (s.lineBit = lvl ∧ ¬ bound ≤ s.cnt ∧
      measureSample lvl bound s = (none, s.lineNext.setCnt (s.cnt + 1#32))) := by
  unfold measureSample
  by_cases h : s.lineBit = lvl
  · by_cases hb : bound ≤ s.cnt <;> simp [h, hb]
  · simp [h]

/-- A sample at another level ends the measurement with the count. -/
theorem measureSample_of_ne {lvl : Bool} {bound : Word} {s : State} (h : s.lineBit ≠ lvl) :
    measureSample lvl bound s = (some (.value s.cnt), s.lineNext) := by
  simp [measureSample, h]

/-- A sample at the level where the count is at the bound times out. -/
theorem measureSample_timeout {lvl : Bool} {bound : Word} {s : State} (h : s.lineBit = lvl) (hb : bound ≤ s.cnt) :
    measureSample lvl bound s = (some .timeout, s.lineNext) := by
  simp [measureSample, h, hb]

/-- A sample at the level below the bound is counted. -/
theorem measureSample_counts {lvl : Bool} {bound : Word} {s : State} (h : s.lineBit = lvl) (hb : ¬ bound ≤ s.cnt) :
    measureSample lvl bound s = (none, s.lineNext.setCnt (s.cnt + 1#32)) := by
  simp [measureSample, h, hb]

/-! ### The cache's bytes -/

/-- Byte `i` of the word made of four bytes (`20_memory.md` R83). -/
theorem wordByte_wordOfBytes (b0 b1 b2 b3 : Byte) :
    wordByte (wordOfBytes b0 b1 b2 b3) 0 = b0 ∧ wordByte (wordOfBytes b0 b1 b2 b3) 1 = b1 ∧
    wordByte (wordOfBytes b0 b1 b2 b3) 2 = b2 ∧ wordByte (wordOfBytes b0 b1 b2 b3) 3 = b3 := by
  refine ⟨?_, ?_, ?_, ?_⟩ <;> ext i hi <;>
    simp only [wordByte, wordOfBytes, BitVec.getElem_extractLsb', BitVec.getLsbD_append] <;>
    simp [hi, BitVec.getLsbD_eq_getElem, show ¬ (8 + i < 8) by omega, show ¬ (16 + i < 8) by omega,
      show ¬ (24 + i < 8) by omega, show 8 + i - 8 = i by omega, show 16 + i - 8 = 8 + i by omega,
      show 24 + i - 8 = 16 + i by omega]

/-! ### The sequencer -/

@[simp] theorem sequence_idle {s : State} (h : s.seq = .idle) : sequence s = s := by
  simp [sequence, h]

theorem sequence_run {s : State} {p : Phase} (h : s.seq = .run p) : sequence s = phaseStep p s := by
  simp [sequence, h]

/-! ### Accesses -/

/-- A 32-bit access at a multiple of 4 below 64 names the register there. -/
theorem classifyAccess_register (k : Nat) (h : k < 16) : classifyAccess ((4 * k : Nat) : Int) 4 = .register (4 * k) := by
  have h0 : ¬ (((4 * k : Nat) : Int) < 0 ∨ (0x40 : Int) ≤ ((4 * k : Nat) : Int)) := by omega
  have h1 : (((4 * k : Nat) : Int)).toNat = 4 * k := by omega
  simp only [classifyAccess, h0, if_false, h1]
  simp

/-! ### The step -/

theorem step_nil {s : State} (h : s.agenda = []) : step s = .next (sequence s) := by
  simp [step, h]

theorem step_cons {s : State} {e : Event} {rest : List Event} (h : s.agenda = e :: rest) :
    step s = perform e (s.withAgenda rest) := by
  simp [step, h]

end Sys2Proof.Machine
end

