-- ==== Sys2Proof/Laws/PerInstr.lean ====
section
/-! SUPPORT. The family EncodingFits, one lemma per constructor: a command is well formed, its word holds its opcode
in `w[3:0]` (`30_encoding.md` R110), and the word has no bit the command does not use (R111, R117). -/

namespace Sys2Proof.Laws.EncodingFits

/-- The encoded word has the command's opcode and no bit beside the fields the command uses. -/
def Statement (i : Instr) : Prop :=
  i.wf = true ∧ opField (encode i) = opcode i ∧ encode i &&& ~~~ usedMask i = 0#32

theorem nop : Statement .nop := by unfold Statement; decide
theorem beginCmd : Statement .beginCmd := by unfold Statement; decide
theorem beginArg : Statement .beginArg := by unfold Statement; decide
theorem readHum (force : Bool) : Statement (.readHum force) := by unfold Statement; cases force <;> decide
theorem readTemp (force fahr : Bool) : Statement (.readTemp force fahr) := by
  unfold Statement; cases force <;> cases fahr <;> decide
theorem convertCToF : Statement .convertCToF := by unfold Statement; decide
theorem reserved6 : Statement .reserved6 := by unfold Statement; decide
theorem reserved7 : Statement .reserved7 := by unfold Statement; decide
theorem reserved8 : Statement .reserved8 := by unfold Statement; decide
theorem reserved9 : Statement .reserved9 := by unfold Statement; decide
theorem reservedA : Statement .reservedA := by unfold Statement; decide
theorem reservedB : Statement .reservedB := by unfold Statement; decide
theorem reservedC : Statement .reservedC := by unfold Statement; decide
theorem reservedD : Statement .reservedD := by unfold Statement; decide
theorem reservedE : Statement .reservedE := by unfold Statement; decide
theorem reservedF : Statement .reservedF := by unfold Statement; decide

end Sys2Proof.Laws.EncodingFits
end

