-- ==== Sys2Proof/Laws/Sequencer.lean ====
section
/-! SUPPORT. What the sequencer's moves can do: the frame of the measurement steps, field by field, the cases of a
sampling step, and the registers no micro-operation writes. -/

namespace Sys2Proof.Machine

variable (s : State)

/-! ### The step from one pulse to the next writes only `seq`, `cnt` and `bitk` -/

theorem nextPulse_eq (j : Fin 82) : ∃ b c q, nextPulse j s = { s with bitk := b, cnt := c, seq := q } := by
  unfold nextPulse
  by_cases h : j.val + 1 < 82
  · by_cases h2 : 2 ≤ j.val + 1 <;> simp only [h, h2, dif_pos, if_true, if_false] <;> exact ⟨_, _, _, rfl⟩
  · simp only [h, dif_neg, not_false_eq_true]; exact ⟨_, _, _, rfl⟩

@[simp] theorem nextPulse_configType (j : Fin 82) : (nextPulse j s).configType = s.configType := by
  obtain ⟨_, _, _, h⟩ := nextPulse_eq s j; rw [h]
@[simp] theorem nextPulse_arg (j : Fin 82) : (nextPulse j s).arg = s.arg := by
  obtain ⟨_, _, _, h⟩ := nextPulse_eq s j; rw [h]
@[simp] theorem nextPulse_result (j : Fin 82) : (nextPulse j s).result = s.result := by
  obtain ⟨_, _, _, h⟩ := nextPulse_eq s j; rw [h]
@[simp] theorem nextPulse_raw0 (j : Fin 82) : (nextPulse j s).raw0 = s.raw0 := by
  obtain ⟨_, _, _, h⟩ := nextPulse_eq s j; rw [h]
@[simp] theorem nextPulse_raw1 (j : Fin 82) : (nextPulse j s).raw1 = s.raw1 := by
  obtain ⟨_, _, _, h⟩ := nextPulse_eq s j; rw [h]
@[simp] theorem nextPulse_ts (j : Fin 82) : (nextPulse j s).ts = s.ts := by
  obtain ⟨_, _, _, h⟩ := nextPulse_eq s j; rw [h]
@[simp] theorem nextPulse_budget (j : Fin 82) : (nextPulse j s).budget = s.budget := by
  obtain ⟨_, _, _, h⟩ := nextPulse_eq s j; rw [h]
@[simp] theorem nextPulse_bitthr (j : Fin 82) : (nextPulse j s).bitthr = s.bitthr := by
  obtain ⟨_, _, _, h⟩ := nextPulse_eq s j; rw [h]
@[simp] theorem nextPulse_settle (j : Fin 82) : (nextPulse j s).settle = s.settle := by
  obtain ⟨_, _, _, h⟩ := nextPulse_eq s j; rw [h]
@[simp] theorem nextPulse_busy (j : Fin 82) : (nextPulse j s).busy = s.busy := by
  obtain ⟨_, _, _, h⟩ := nextPulse_eq s j; rw [h]
@[simp] theorem nextPulse_init (j : Fin 82) : (nextPulse j s).init = s.init := by
  obtain ⟨_, _, _, h⟩ := nextPulse_eq s j; rw [h]
@[simp] theorem nextPulse_valid (j : Fin 82) : (nextPulse j s).valid = s.valid := by
  obtain ⟨_, _, _, h⟩ := nextPulse_eq s j; rw [h]
@[simp] theorem nextPulse_guardActive (j : Fin 82) : (nextPulse j s).guardActive = s.guardActive := by
  obtain ⟨_, _, _, h⟩ := nextPulse_eq s j; rw [h]
@[simp] theorem nextPulse_caldef (j : Fin 82) : (nextPulse j s).caldef = s.caldef := by
  obtain ⟨_, _, _, h⟩ := nextPulse_eq s j; rw [h]
@[simp] theorem nextPulse_nodata (j : Fin 82) : (nextPulse j s).nodata = s.nodata := by
  obtain ⟨_, _, _, h⟩ := nextPulse_eq s j; rw [h]
@[simp] theorem nextPulse_outcome (j : Fin 82) : (nextPulse j s).outcome = s.outcome := by
  obtain ⟨_, _, _, h⟩ := nextPulse_eq s j; rw [h]
@[simp] theorem nextPulse_err (j : Fin 82) : (nextPulse j s).err = s.err := by
  obtain ⟨_, _, _, h⟩ := nextPulse_eq s j; rw [h]
@[simp] theorem nextPulse_op (j : Fin 82) : (nextPulse j s).op = s.op := by
  obtain ⟨_, _, _, h⟩ := nextPulse_eq s j; rw [h]
@[simp] theorem nextPulse_force (j : Fin 82) : (nextPulse j s).force = s.force := by
  obtain ⟨_, _, _, h⟩ := nextPulse_eq s j; rw [h]
@[simp] theorem nextPulse_fahr (j : Fin 82) : (nextPulse j s).fahr = s.fahr := by
  obtain ⟨_, _, _, h⟩ := nextPulse_eq s j; rw [h]
@[simp] theorem nextPulse_hcnt (j : Fin 82) : (nextPulse j s).hcnt = s.hcnt := by
  obtain ⟨_, _, _, h⟩ := nextPulse_eq s j; rw [h]
@[simp] theorem nextPulse_stage (j : Fin 82) : (nextPulse j s).stage = s.stage := by
  obtain ⟨_, _, _, h⟩ := nextPulse_eq s j; rw [h]
@[simp] theorem nextPulse_pinMode (j : Fin 82) : (nextPulse j s).pinMode = s.pinMode := by
  obtain ⟨_, _, _, h⟩ := nextPulse_eq s j; rw [h]
@[simp] theorem nextPulse_inst (j : Fin 82) : (nextPulse j s).inst = s.inst := by
  obtain ⟨_, _, _, h⟩ := nextPulse_eq s j; rw [h]
@[simp] theorem nextPulse_agenda (j : Fin 82) : (nextPulse j s).agenda = s.agenda := by
  obtain ⟨_, _, _, h⟩ := nextPulse_eq s j; rw [h]
@[simp] theorem nextPulse_lineIn (j : Fin 82) : (nextPulse j s).lineIn = s.lineIn := by
  obtain ⟨_, _, _, h⟩ := nextPulse_eq s j; rw [h]
@[simp] theorem nextPulse_clockIn (j : Fin 82) : (nextPulse j s).clockIn = s.clockIn := by
  obtain ⟨_, _, _, h⟩ := nextPulse_eq s j; rw [h]
@[simp] theorem nextPulse_lineTaken (j : Fin 82) : (nextPulse j s).lineTaken = s.lineTaken := by
  obtain ⟨_, _, _, h⟩ := nextPulse_eq s j; rw [h]
@[simp] theorem nextPulse_clockTaken (j : Fin 82) : (nextPulse j s).clockTaken = s.clockTaken := by
  obtain ⟨_, _, _, h⟩ := nextPulse_eq s j; rw [h]
@[simp] theorem nextPulse_waitedUs (j : Fin 82) : (nextPulse j s).waitedUs = s.waitedUs := by
  obtain ⟨_, _, _, h⟩ := nextPulse_eq s j; rw [h]
@[simp] theorem nextPulse_rdata (j : Fin 82) : (nextPulse j s).rdata = s.rdata := by
  obtain ⟨_, _, _, h⟩ := nextPulse_eq s j; rw [h]
@[simp] theorem nextPulse_params (j : Fin 82) : (nextPulse j s).params = s.params := by
  obtain ⟨_, _, _, h⟩ := nextPulse_eq s j; rw [h]; rfl
@[simp] theorem nextPulse_lineBit (j : Fin 82) : (nextPulse j s).lineBit = s.lineBit := by
  obtain ⟨_, _, _, h⟩ := nextPulse_eq s j; rw [h]; rfl
@[simp] theorem nextPulse_clockWord (j : Fin 82) : (nextPulse j s).clockWord = s.clockWord := by
  obtain ⟨_, _, _, h⟩ := nextPulse_eq s j; rw [h]; rfl

/-! ### Storing a bit writes only `hcnt` and `stage`; the end of a pulse both -/

@[simp] theorem storeBit_configType (n : Word) : (storeBit n s).configType = s.configType := rfl
@[simp] theorem storeBit_arg (n : Word) : (storeBit n s).arg = s.arg := rfl
@[simp] theorem storeBit_result (n : Word) : (storeBit n s).result = s.result := rfl
@[simp] theorem storeBit_raw0 (n : Word) : (storeBit n s).raw0 = s.raw0 := rfl
@[simp] theorem storeBit_raw1 (n : Word) : (storeBit n s).raw1 = s.raw1 := rfl
@[simp] theorem storeBit_ts (n : Word) : (storeBit n s).ts = s.ts := rfl
@[simp] theorem storeBit_budget (n : Word) : (storeBit n s).budget = s.budget := rfl
@[simp] theorem storeBit_bitthr (n : Word) : (storeBit n s).bitthr = s.bitthr := rfl
@[simp] theorem storeBit_settle (n : Word) : (storeBit n s).settle = s.settle := rfl
@[simp] theorem storeBit_busy (n : Word) : (storeBit n s).busy = s.busy := rfl
@[simp] theorem storeBit_init (n : Word) : (storeBit n s).init = s.init := rfl
@[simp] theorem storeBit_valid (n : Word) : (storeBit n s).valid = s.valid := rfl
@[simp] theorem storeBit_guardActive (n : Word) : (storeBit n s).guardActive = s.guardActive := rfl
@[simp] theorem storeBit_caldef (n : Word) : (storeBit n s).caldef = s.caldef := rfl
@[simp] theorem storeBit_nodata (n : Word) : (storeBit n s).nodata = s.nodata := rfl
@[simp] theorem storeBit_outcome (n : Word) : (storeBit n s).outcome = s.outcome := rfl
@[simp] theorem storeBit_err (n : Word) : (storeBit n s).err = s.err := rfl
@[simp] theorem storeBit_seq (n : Word) : (storeBit n s).seq = s.seq := rfl
@[simp] theorem storeBit_op (n : Word) : (storeBit n s).op = s.op := rfl
@[simp] theorem storeBit_force (n : Word) : (storeBit n s).force = s.force := rfl
@[simp] theorem storeBit_fahr (n : Word) : (storeBit n s).fahr = s.fahr := rfl
@[simp] theorem storeBit_cnt (n : Word) : (storeBit n s).cnt = s.cnt := rfl
@[simp] theorem storeBit_bitk (n : Word) : (storeBit n s).bitk = s.bitk := rfl
@[simp] theorem storeBit_pinMode (n : Word) : (storeBit n s).pinMode = s.pinMode := rfl
@[simp] theorem storeBit_inst (n : Word) : (storeBit n s).inst = s.inst := rfl
@[simp] theorem storeBit_agenda (n : Word) : (storeBit n s).agenda = s.agenda := rfl
@[simp] theorem storeBit_lineIn (n : Word) : (storeBit n s).lineIn = s.lineIn := rfl
@[simp] theorem storeBit_clockIn (n : Word) : (storeBit n s).clockIn = s.clockIn := rfl
@[simp] theorem storeBit_lineTaken (n : Word) : (storeBit n s).lineTaken = s.lineTaken := rfl
@[simp] theorem storeBit_clockTaken (n : Word) : (storeBit n s).clockTaken = s.clockTaken := rfl
@[simp] theorem storeBit_waitedUs (n : Word) : (storeBit n s).waitedUs = s.waitedUs := rfl
@[simp] theorem storeBit_rdata (n : Word) : (storeBit n s).rdata = s.rdata := rfl
@[simp] theorem storeBit_params (n : Word) : (storeBit n s).params = s.params := rfl
@[simp] theorem storeBit_lineBit (n : Word) : (storeBit n s).lineBit = s.lineBit := rfl
@[simp] theorem storeBit_clockWord (n : Word) : (storeBit n s).clockWord = s.clockWord := rfl
@[simp] theorem pulseDone_configType (j : Fin 82) (n : Word) : (pulseDone j n s).configType = s.configType := by
  unfold pulseDone; split <;> simp
@[simp] theorem pulseDone_arg (j : Fin 82) (n : Word) : (pulseDone j n s).arg = s.arg := by
  unfold pulseDone; split <;> simp
@[simp] theorem pulseDone_result (j : Fin 82) (n : Word) : (pulseDone j n s).result = s.result := by
  unfold pulseDone; split <;> simp
@[simp] theorem pulseDone_raw0 (j : Fin 82) (n : Word) : (pulseDone j n s).raw0 = s.raw0 := by
  unfold pulseDone; split <;> simp
@[simp] theorem pulseDone_raw1 (j : Fin 82) (n : Word) : (pulseDone j n s).raw1 = s.raw1 := by
  unfold pulseDone; split <;> simp
@[simp] theorem pulseDone_ts (j : Fin 82) (n : Word) : (pulseDone j n s).ts = s.ts := by
  unfold pulseDone; split <;> simp
@[simp] theorem pulseDone_budget (j : Fin 82) (n : Word) : (pulseDone j n s).budget = s.budget := by
  unfold pulseDone; split <;> simp
@[simp] theorem pulseDone_bitthr (j : Fin 82) (n : Word) : (pulseDone j n s).bitthr = s.bitthr := by
  unfold pulseDone; split <;> simp
@[simp] theorem pulseDone_settle (j : Fin 82) (n : Word) : (pulseDone j n s).settle = s.settle := by
  unfold pulseDone; split <;> simp
@[simp] theorem pulseDone_busy (j : Fin 82) (n : Word) : (pulseDone j n s).busy = s.busy := by
  unfold pulseDone; split <;> simp
@[simp] theorem pulseDone_init (j : Fin 82) (n : Word) : (pulseDone j n s).init = s.init := by
  unfold pulseDone; split <;> simp
@[simp] theorem pulseDone_valid (j : Fin 82) (n : Word) : (pulseDone j n s).valid = s.valid := by
  unfold pulseDone; split <;> simp
@[simp] theorem pulseDone_guardActive (j : Fin 82) (n : Word) : (pulseDone j n s).guardActive = s.guardActive := by
  unfold pulseDone; split <;> simp
@[simp] theorem pulseDone_caldef (j : Fin 82) (n : Word) : (pulseDone j n s).caldef = s.caldef := by
  unfold pulseDone; split <;> simp
@[simp] theorem pulseDone_nodata (j : Fin 82) (n : Word) : (pulseDone j n s).nodata = s.nodata := by
  unfold pulseDone; split <;> simp
@[simp] theorem pulseDone_outcome (j : Fin 82) (n : Word) : (pulseDone j n s).outcome = s.outcome := by
  unfold pulseDone; split <;> simp
@[simp] theorem pulseDone_err (j : Fin 82) (n : Word) : (pulseDone j n s).err = s.err := by
  unfold pulseDone; split <;> simp
@[simp] theorem pulseDone_op (j : Fin 82) (n : Word) : (pulseDone j n s).op = s.op := by
  unfold pulseDone; split <;> simp
@[simp] theorem pulseDone_force (j : Fin 82) (n : Word) : (pulseDone j n s).force = s.force := by
  unfold pulseDone; split <;> simp
@[simp] theorem pulseDone_fahr (j : Fin 82) (n : Word) : (pulseDone j n s).fahr = s.fahr := by
  unfold pulseDone; split <;> simp
@[simp] theorem pulseDone_pinMode (j : Fin 82) (n : Word) : (pulseDone j n s).pinMode = s.pinMode := by
  unfold pulseDone; split <;> simp
@[simp] theorem pulseDone_inst (j : Fin 82) (n : Word) : (pulseDone j n s).inst = s.inst := by
  unfold pulseDone; split <;> simp
@[simp] theorem pulseDone_agenda (j : Fin 82) (n : Word) : (pulseDone j n s).agenda = s.agenda := by
  unfold pulseDone; split <;> simp
@[simp] theorem pulseDone_lineIn (j : Fin 82) (n : Word) : (pulseDone j n s).lineIn = s.lineIn := by
  unfold pulseDone; split <;> simp
@[simp] theorem pulseDone_clockIn (j : Fin 82) (n : Word) : (pulseDone j n s).clockIn = s.clockIn := by
  unfold pulseDone; split <;> simp
@[simp] theorem pulseDone_lineTaken (j : Fin 82) (n : Word) : (pulseDone j n s).lineTaken = s.lineTaken := by
  unfold pulseDone; split <;> simp
@[simp] theorem pulseDone_clockTaken (j : Fin 82) (n : Word) : (pulseDone j n s).clockTaken = s.clockTaken := by
  unfold pulseDone; split <;> simp
@[simp] theorem pulseDone_waitedUs (j : Fin 82) (n : Word) : (pulseDone j n s).waitedUs = s.waitedUs := by
  unfold pulseDone; split <;> simp
@[simp] theorem pulseDone_rdata (j : Fin 82) (n : Word) : (pulseDone j n s).rdata = s.rdata := by
  unfold pulseDone; split <;> simp
@[simp] theorem pulseDone_params (j : Fin 82) (n : Word) : (pulseDone j n s).params = s.params := by
  unfold pulseDone; split <;> simp
@[simp] theorem pulseDone_lineBit (j : Fin 82) (n : Word) : (pulseDone j n s).lineBit = s.lineBit := by
  unfold pulseDone; split <;> simp
@[simp] theorem pulseDone_clockWord (j : Fin 82) (n : Word) : (pulseDone j n s).clockWord = s.clockWord := by
  unfold pulseDone; split <;> simp

/-- The phase after pulse `j`: the next measurement, or the guard exit after the last. -/
theorem pulseDone_seq (j : Fin 82) (n : Word) :
    (∃ h : j.val + 1 < 82, (pulseDone j n s).seq = .run (.rMeas ⟨j.val + 1, h⟩) ∧ (pulseDone j n s).cnt = 0#32 ∧
      (2 ≤ j.val + 1 → (pulseDone j n s).bitk = bitIndex (j.val + 1))) ∨
    (j.val = 81 ∧ (pulseDone j n s).seq = .run .rGuardExit) := by
  have key : ∀ t : State,
      (∃ h : j.val + 1 < 82, (nextPulse j t).seq = .run (.rMeas ⟨j.val + 1, h⟩) ∧ (nextPulse j t).cnt = 0#32 ∧
        (2 ≤ j.val + 1 → (nextPulse j t).bitk = bitIndex (j.val + 1))) ∨
      (j.val = 81 ∧ (nextPulse j t).seq = .run .rGuardExit) := by
    intro t
    have hj := j.isLt
    unfold nextPulse
    by_cases h : j.val + 1 < 82
    · by_cases h2 : 2 ≤ j.val + 1
      · exact .inl ⟨h, by simp [h, h2]⟩
      · exact .inl ⟨h, by simp [h, h2]⟩
    · exact .inr ⟨by omega, by simp [h]⟩
  unfold pulseDone
  split
  · exact key _
  · exact key _

/-! ### A sampling step -/

/-- What one sample of a wire-cycle measurement does (`41_refresh.md` R157, R158, R160). -/
theorem rMeasStep_cases (j : Fin 82) :
    (s.lineBit ≠ pulseLevel j.val ∧ rMeasStep j s = pulseDone j s.cnt s.lineNext) ∨
    (s.lineBit = pulseLevel j.val ∧ s.budget ≤ s.cnt ∧ rMeasStep j s = s.lineNext.goto (.rAbort .timeout)) ∨
    (s.lineBit = pulseLevel j.val ∧ ¬ s.budget ≤ s.cnt ∧ rMeasStep j s = s.lineNext.setCnt (s.cnt + 1#32)) := by
  rcases measureSample_cases (pulseLevel j.val) s.budget s with ⟨h, e⟩ | ⟨h, hb, e⟩ | ⟨h, hb, e⟩
  · exact .inl ⟨h, by simp [rMeasStep, e]⟩
  · exact .inr (.inl ⟨h, hb, by simp [rMeasStep, e]⟩)
  · exact .inr (.inr ⟨h, hb, by simp [rMeasStep, e]⟩)

/-- What one sample of the calibration measurement does (`40_init.md` R134, R136). -/
theorem bRefStep_cases :
    (s.lineBit = true ∧ bRefStep s = s.lineNext.goto (.bEnd (.value s.cnt))) ∨
    (s.lineBit = false ∧ s.params.budgetDefault ≤ s.cnt ∧ bRefStep s = s.lineNext.goto (.bEnd .timeout)) ∨
    (s.lineBit = false ∧ ¬ s.params.budgetDefault ≤ s.cnt ∧ bRefStep s = s.lineNext.setCnt (s.cnt + 1#32)) := by
  rcases measureSample_cases false s.params.budgetDefault s with ⟨h, e⟩ | ⟨h, hb, e⟩ | ⟨h, hb, e⟩
  · exact .inl ⟨by simpa using h, by simp [bRefStep, e]⟩
  · exact .inr (.inl ⟨h, hb, by simp [bRefStep, e]⟩)
  · exact .inr (.inr ⟨h, hb, by simp [bRefStep, e]⟩)

/-! ### The calibration and the check read and write what their rules say -/

/-- The end of a calibration writes BUDGET, BITTHR and CALDEF alone. -/
theorem calibrate_eq (r : Count) :
    ∃ b t d, calibrate r s = { s with budget := b, bitthr := t, caldef := d } := by
  unfold calibrate
  cases r with
  | timeout => exact ⟨_, _, _, rfl⟩
  | value n => by_cases h : n = 0#32 <;> simp only [h, if_true, if_false] <;> exact ⟨_, _, _, rfl⟩

/-- The state a BEGIN leaves, whatever the measurement gave (`40_init.md` R134, R135, R136). -/
theorem bEndStep_eq (r : Count) :
    ∃ b t d, bEndStep r s =
      { s with guardActive := false, budget := b, bitthr := t, caldef := d, raw0 := 0#32, raw1 := 0#8, ts := 0#32,
               valid := false, outcome := .none, nodata := false, init := true, err := .none, busy := false,
               seq := .idle } := by
  obtain ⟨b, t, d, h⟩ := calibrate_eq s.guardExit r
  exact ⟨b, t, d, by rw [bEndStep, h]; rfl⟩

/-- No micro-operation writes a host-written register, a latch, the settle time, the parameters, the agenda or the
bus data. -/
theorem sequence_keeps :
    (sequence s).configType = s.configType ∧ (sequence s).arg = s.arg ∧ (sequence s).settle = s.settle ∧
    (sequence s).op = s.op ∧ (sequence s).force = s.force ∧ (sequence s).fahr = s.fahr ∧
    (sequence s).inst = s.inst ∧ (sequence s).agenda = s.agenda ∧ (sequence s).rdata = s.rdata := by
  unfold sequence
  split
  · simp
  · rename_i p _
    cases p with
    | bRef => rcases bRefStep_cases s with ⟨_, e⟩ | ⟨_, _, e⟩ | ⟨_, _, e⟩ <;> simp [phaseStep, e]
    | bEnd r => obtain ⟨b, t, d, e⟩ := bEndStep_eq s r; simp [phaseStep, e]
    | rMeas j => rcases rMeasStep_cases s j with ⟨_, e⟩ | ⟨_, _, e⟩ | ⟨_, _, e⟩ <;> simp [phaseStep, e]
    | rCheck => simp only [phaseStep, rCheckStep]; split <;> simp [State.clockNext, State.goto]
    | rValidate => simp only [phaseStep, rValidateStep]; split <;> simp
    | rCommit => simp [phaseStep, rCommitStep, State.clockNext, State.goto]
    | rDecode => simp only [phaseStep, rDecodeStep]; split <;> simp
    | bRefEnter => simp [phaseStep, bRefEnterStep]
    | rMeasEnter => simp [phaseStep, rMeasEnterStep]
    | _ => simp [phaseStep]

@[simp] theorem sequence_agenda : (sequence s).agenda = s.agenda := (sequence_keeps s).2.2.2.2.2.2.2.1

@[simp] theorem sequence_inst : (sequence s).inst = s.inst := (sequence_keeps s).2.2.2.2.2.2.1

@[simp] theorem sequence_params : (sequence s).params = s.params := by simp [State.params]

/-! ### A run with no pending move is the sequencer's -/

/-- `k` micro-steps of the sequencer. -/
def sequenceN : Nat → State → State
  | 0, s => s
  | k + 1, s => sequenceN k (sequence s)

theorem sequenceN_add (a b : Nat) : sequenceN (a + b) s = sequenceN b (sequenceN a s) := by
  induction a generalizing s with
  | zero => simp [sequenceN]
  | succ a ih => rw [Nat.succ_add, sequenceN, sequenceN, ih]

end Sys2Proof.Machine
end

