-- ==== Sys2Proof/Laws/Run.lean ====
section
/-! SUPPORT. Runs of the machine (`Host.Core.run`): one step at a time, and the sequencer's alone where no move is
pending. The sequencer's step, whichever way the agenda gives it the turn. -/

namespace Sys2Proof.Machine

/-- Whichever way the turn comes to it, the sequencer's move is one micro-step of the state without that entry. -/
theorem step_of_sequencerMoves {s : State} (h : sequencerMoves s) :
    step s = .next (sequence (s.withAgenda s.agenda.tail)) := by
  rcases h with h | h
  · rw [step_nil h]; congr; cases s; simp_all [State.withAgenda]
  · cases ha : s.agenda with
    | nil => simp [ha] at h
    | cons e rest => simp [ha] at h; subst h; rw [step_cons ha]; simp [perform]

/-- The same at a phase. -/
theorem step_of_phase {s : State} {p : Phase} (h : sequencerMoves s) (hs : s.seq = .run p) :
    step s = .next (phaseStep p (s.withAgenda s.agenda.tail)) := by
  rw [step_of_sequencerMoves h, sequence_run (by simpa using hs)]

/-- Which micro-operations can change RESULT, the calibration and the STATUS fields. -/
theorem sequence_writers (s : State) :
    ((sequence s).budget ≠ s.budget ∨ (sequence s).bitthr ≠ s.bitthr ∨ (sequence s).caldef ≠ s.caldef ∨
      (sequence s).init ≠ s.init → ∃ r, s.seq = .run (.bEnd r)) ∧
    ((sequence s).result ≠ s.result → s.seq = .run .rDecode) ∧
    ((sequence s).nodata ≠ s.nodata ∨ (sequence s).busy ≠ s.busy →
      (∃ r, s.seq = .run (.bEnd r)) ∨ s.seq = .run .rDecode) ∧
    ((sequence s).outcome ≠ s.outcome ∨ (sequence s).err ≠ s.err → (∃ r, s.seq = .run (.bEnd r)) ∨
      s.seq = .run .rCheck ∨ s.seq = .run .rCommit ∨ ∃ c, s.seq = .run (.rAbort c)) ∧
    ((sequence s).guardActive ≠ s.guardActive → s.seq = .run .bRefEnter ∨ (∃ r, s.seq = .run (.bEnd r)) ∨
      s.seq = .run .rMeasEnter ∨ s.seq = .run .rGuardExit ∨ ∃ c, s.seq = .run (.rAbort c)) := by
  cases hs : s.seq with
  | idle => simp [sequence_idle hs]
  | run p =>
    rw [sequence_run hs]
    cases p with
    | bRef => rcases bRefStep_cases s with ⟨_, e⟩ | ⟨_, _, e⟩ | ⟨_, _, e⟩ <;> simp [phaseStep, e]
    | bEnd r => obtain ⟨b, t, d, e⟩ := bEndStep_eq s r; simp [phaseStep, e]
    | rMeas j => rcases rMeasStep_cases s j with ⟨_, e⟩ | ⟨_, _, e⟩ | ⟨_, _, e⟩ <;> simp [phaseStep, e]
    | rCheck => simp only [phaseStep, rCheckStep]; split <;> simp [State.clockNext, State.goto]
    | rValidate => simp only [phaseStep, rValidateStep]; split <;> simp
    | rCommit => simp [phaseStep, rCommitStep, State.clockNext, State.goto]
    | rDecode => simp only [phaseStep, rDecodeStep]; split <;> simp [finishAccessor]
    | bRefEnter => simp [phaseStep, bRefEnterStep]
    | rMeasEnter => simp [phaseStep, rMeasEnterStep]
    | rAbort c => simp [phaseStep, abort]
    | _ => simp [phaseStep]

theorem run_zero (s : State) : core.run 0 s = .next s := rfl

theorem run_succ_of_step {s t : State} (k : Nat) (h : step s = .next t) : core.run (k + 1) s = core.run k t := by
  have e : core.step s = .next t := h
  simp only [Host.Core.run]
  rw [e]

theorem run_add {s t : State} {a : Nat} (b : Nat) (h : core.run a s = .next t) :
    core.run (a + b) s = core.run b t := by
  induction a generalizing s with
  | zero => cases h; simp
  | succ a ih =>
    simp only [Host.Core.run] at h
    cases hs : core.step s with
    | next u => rw [hs] at h; rw [Nat.succ_add, run_succ_of_step _ hs]; exact ih h
    | fault r => rw [hs] at h; cases h
    | refused r => rw [hs] at h; cases h

/-- With no move pending a run is `k` micro-steps of the sequencer. -/
theorem run_of_no_agenda (k : Nat) {s : State} (h : s.agenda = []) : core.run k s = .next (sequenceN k s) := by
  induction k generalizing s with
  | zero => rfl
  | succ k ih => rw [run_succ_of_step k (step_nil h), ih (by simpa using h), sequenceN]

end Sys2Proof.Machine
end

