-- ==== Sys2Proof/Tests/Slice0.lean ====
section
/-! SUPPORT. The model's own tests. Expected values are transcribed from `95_test_vectors.md` (the vector is named),
from the encoding of `30_encoding.md` R110, or computed by hand from the rule named. The `witness_` theorems show for
each obligation with hypotheses a concrete state and operands that meet them. -/

open Sys2Proof Sys2Proof.Machine

namespace Sys2Proof.Tests

/-! ### Helpers -/

/-- The example configuration EC of `95_test_vectors.md` section 0. -/
def ec : Params where
  base := 0x4000
  tWakeUs := 18000
  tIdleUs := 250000
  settleDefaultUs := 40
  tRefUs := 80
  budgetMarginUs := 200
  tBitThrUs := 40
  budgetDefault := 1000
  thrDefault := 40
  guardEn := true

/-- EC with a small `BUDGET_DEFAULT`, for boundary cases that stay short. -/
def ecSmall : Params := { ec with budgetDefault := 3 }

/-- The reset state of a block with the parameters EC. -/
def bare : State := { State.reset with inst := some ec }

/-- The state after V-B1: `STATUS = 0x00000002`, `BUDGET = 200`, `BITTHR = 40`. -/
def begun : State := { bare with init := true, budget := 200#32, bitthr := 40#32, settle := 40#16 }

/-- The state after V-W1: the cache of the worked example, `TS` = 5004. -/
def sampled : State :=
  { begun with valid := true, raw0 := 0x001B0032#32, raw1 := 0x4D#8, ts := 0x0000138C#32, outcome := .fresh }

/-- A state of a running command at phase `p`. -/
def running (s : State) (opc : BitVec 4) (p : Phase) : State := { s with op := opc, busy := true, seq := .run p }

/-- The cache of the worked example. -/
def known : Sample := { b0 := 0x32#8, b1 := 0x00#8, b2 := 0x1B#8, b3 := 0x00#8, b4 := 0x4D#8 }

/-- A field of the next state, where there is one. -/
def seen {α : Type} (o : Host.Outcome State Fault Refusal) (f : State → α) : Option α :=
  match o with
  | .next t => some (f t)
  | .fault _ => none
  | .refused _ => none

/-- The machine stops with a fault. -/
def faults (o : Host.Outcome State Fault Refusal) : Bool :=
  match o with
  | .next _ => false
  | .fault _ => true
  | .refused _ => false

/-- The machine refuses. -/
def refuses (o : Host.Outcome State Fault Refusal) : Bool :=
  match o with
  | .next _ => false
  | .fault _ => false
  | .refused _ => true

/-- The pulse counts of `FRAME(b0, b1, b2, b3, b4)`: 80 for the acknowledgement, 50 low, and 70 or 26 high. -/
def frameCounts (bytes : List Nat) : List Nat :=
  [80, 80] ++ bytes.flatMap fun b =>
    [7, 6, 5, 4, 3, 2, 1, 0].flatMap fun k => [50, if b.testBit k then 70 else 26]

/-- The state of a READ_HUM before R_CHECK, in front of a line. -/
def asking (line : List Bool) : State :=
  { running begun 0x3#4 .rCheck with lineIn := line, clockIn := [0#32, 4#32] }

/-! ### Well-formedness: what the check refuses (`20_memory.md` R80, R81, R82; `30_encoding.md` R111) -/

theorem test_wf_word_access : (HostOp.rd 0x3C 4).wf = true ∧ (HostOp.wr 0 4 0#32).wf = true := by decide
theorem test_wf_refuses_byte_access : (HostOp.rd 0x04 1).wf = false := by decide
theorem test_wf_refuses_misaligned : (HostOp.wr 0x0E 4 0#32).wf = false := by decide
theorem test_wf_refuses_above_window : (HostOp.rd 0x40 4).wf = false := by decide
theorem test_wf_refuses_below_window : (HostOp.rd (-4) 4).wf = false := by decide
theorem test_wf_event : (Event.host (.rd 0x04 2)).wf = false ∧ Event.rst.wf = true := by decide
theorem test_wf_every_command : (Instr.readTemp true true).wf = true ∧ Instr.reservedF.wf = true := by decide

/-! ### Decoding: a word written out from R110 for every constructor (group E where it has one) -/

theorem test_decode_nop : decodeWord 0b00000000000000000000000000000000#32 = .nop := by decide
theorem test_decode_begin : decodeWord 0b00000000000000000000000000000001#32 = .beginCmd := by decide
theorem test_decode_begin_arg : decodeWord 0b00000000000000000000000000000010#32 = .beginArg := by decide
theorem test_decode_read_hum : decodeWord 0b00000000000000000000000000010011#32 = .readHum true ∧
    decodeWord 0b00000000000000000000000000100011#32 = .readHum false := by decide
theorem test_decode_read_temp : decodeWord 0b00000000000000000000000000110100#32 = .readTemp true true ∧
    decodeWord 0b00000000000000000000000000100100#32 = .readTemp false true ∧
    decodeWord 0b11111111111111111111111111010100#32 = .readTemp true false := by decide
theorem test_decode_convert : decodeWord 0b00000000000000000000000011110101#32 = .convertCToF := by decide
theorem test_decode_reserved6 : decodeWord 0b00000000000000000000000000110110#32 = .reserved6 := by decide
theorem test_decode_reserved7 : decodeWord 0b00000000000000000000000000000111#32 = .reserved7 := by decide
theorem test_decode_reserved8 : decodeWord 0b00000000000000000000000000001000#32 = .reserved8 := by decide
theorem test_decode_reserved9 : decodeWord 0b00000000000000000000000000001001#32 = .reserved9 := by decide
theorem test_decode_reservedA : decodeWord 0b00000000000000000000000000001010#32 = .reservedA := by decide
theorem test_decode_reservedB : decodeWord 0b00000000000000000000000000001011#32 = .reservedB := by decide
theorem test_decode_reservedC : decodeWord 0b00000000000000000000000000001100#32 = .reservedC := by decide
theorem test_decode_reservedD : decodeWord 0b00000000000000000000000000001101#32 = .reservedD := by decide
theorem test_decode_reservedE : decodeWord 0b00000000000000000000000000001110#32 = .reservedE := by decide
theorem test_decode_reservedF : decodeWord 0b00000000000000000000000000001111#32 = .reservedF := by decide
theorem test_encode_read_temp : encode (.readTemp true true) = 0x00000034#32 := by decide
theorem test_table_word : decodeTableWord 32 0x14 = some (.readTemp true false) := by decide
theorem test_short_bytes_rejected : decodeBytes [0x03#8, 0x00#8, 0x00#8] = .error .truncated := rfl

/-! ### One step each -/

/-- V-N5: NOP leaves `STATUS = 0x00004020`. -/
theorem test_nop : seen (step ({ bare with nodata := true, err := .badCmd }.withFetchWord 32 0)) statusWord =
    some 0x00004020#32 := by decide

/-- V-N4: a reserved opcode over `STATUS = 0x00003020`. -/
theorem test_reserved : seen (step ({ bare with nodata := true, err := .notInit }.withFetchWord 32 0xF)) statusWord =
    some 0x00004020#32 := by decide

/-- V-N3: READ_HUM after reset. -/
theorem test_read_hum_not_init : seen (step (bare.withFetchWord 32 3)) (fun t => (statusWord t, t.result, t.seq)) =
    some (0x00003020#32, 0x7FC00000#32, .idle) := by decide

/-- R195 with `INIT = 1`: the operands are latched and R_CHECK is next. -/
theorem test_read_temp_starts : seen (step (begun.withFetchWord 32 0x24))
    (fun t => (t.busy, t.op, t.force, t.fahr, t.seq)) = some (true, 0x4#4, false, true, .run .rCheck) := by decide

/-- V-B10: BEGIN with `CONFIG.TYPE = 0x01`. -/
theorem test_begin_bad_config : seen (step ({ bare with configType := 0x01#8 }.withFetchWord 32 1)) statusWord =
    some 0x00005000#32 := by decide

/-- V-B1: BEGIN's settle time is the parameter. -/
theorem test_begin_starts : seen (step (bare.withFetchWord 32 1)) (fun t => (t.settle, t.seq, statusWord t)) =
    some (0x0028#16, .run .bHigh, 0x00000001#32) := by decide

/-- V-B9: BEGIN_ARG takes `ARG[15:0]`. -/
theorem test_begin_arg_settle :
    seen (step ({ bare with arg := 0x00010037#32 }.withFetchWord 32 2)) (fun t => t.settle) = some 0x0037#16 := by decide

/-- V-F2 with R199: CONVERT_C_TO_F keeps NODATA and clears ERR. -/
theorem test_convert : seen (step ({ bare with arg := 0x42C80000#32, nodata := true, err := .notInit }.withFetchWord
    32 5)) (fun t => (t.result, statusWord t)) = some (0x43540000#32, 0x00000020#32) := by decide

/-- R290: a command written while BUSY = 1 is not accepted. -/
theorem test_busy_command_lost :
    seen (step { running sampled 0x3#4 .rCheck with agenda := [cmdWrite 0x00000005#32] }) (fun t => (t.result, t.seq)) =
      some (0x7FC00000#32, .run .rCheck) := by decide

/-- V-N6: `WR CONFIG, 0xFFFFFF05` then the register reads `0x00000005`. -/
theorem test_config_write : seen (step { bare with agenda := [.host (.wr 0x08 4 0xFFFFFF05#32)] })
    (fun t => readReg t 0x08) = some 0x00000005#32 := by decide

/-- V-N7: the write is ignored once `INIT = 1`. -/
theorem test_config_locked : seen (step { begun with agenda := [.host (.wr 0x08 4 1#32)] })
    (fun t => readReg t 0x08) = some 0#32 := by decide

/-- V-N8: `WR ARG, 0xDEADBEEF`. -/
theorem test_arg_write : seen (step { begun with agenda := [.host (.wr 0x0C 4 0xDEADBEEF#32)] })
    (fun t => readReg t 0x0C) = some 0xDEADBEEF#32 := by decide

/-- P1 step 10: `RD STATUS` gives `0x00000106`. -/
theorem test_read_status : seen (step { sampled with outcome := .skipped, agenda := [.host (.rd 0x04 4)] })
    (fun t => t.rdata) = some 0x00000106#32 := by decide

/-- R81 and R82: a byte read in the window stops the host; an address outside is not the block's. -/
theorem test_bad_accesses : faults (step { bare with agenda := [.host (.rd 0x11 1)] }) = true ∧
    refuses (step { bare with agenda := [.host (.rd 0x40 4)] }) = true := by decide

/-- R83: `RAW0 = 0x001B0032` has byte 2 = 0x1B at offset 0x16. -/
theorem test_window_byte : windowByte sampled 0x16 = 0x1B#8 ∧ windowByte sampled 0x18 = 0x4D#8 := by decide

/-- V-R1: 1999 ms after the last success the refresh is skipped. -/
theorem test_skip_at_1999 : seen (step { running sampled 0x3#4 .rCheck with clockIn := [0x00001B5B#32] })
    (fun t => (t.seq, t.outcome)) = some (.run .rDecode, .skipped) := by decide

/-- V-R4: 2000 ms across the wrap of the clock runs a wire cycle. -/
theorem test_wire_cycle_at_2000 : seen (step { running { sampled with ts := 0xFFFFFC18#32 } 0x3#4 .rCheck with
    clockIn := [0x000003E8#32] }) (fun t => t.seq) = some (.run .rWake) := by decide

/-- V-M3 and V-M4 at their last draw: a count of 200 at the bound ends with 200 on a high, and times out on a low. -/
theorem test_measure_at_the_bound :
    (measureSample false 200#32 { begun with cnt := 200#32, lineIn := [true] }).1 = some (.value 200#32) ∧
    (measureSample false 200#32 { begun with cnt := 200#32, lineIn := [false] }).1 = some .timeout := by decide

/-- V-M6 and V-M7: a bound of 0. -/
theorem test_measure_zero_bound : (measureSample true 0#32 { begun with lineIn := [true] }).1 = some .timeout ∧
    (measureSample true 0#32 { begun with lineIn := [false] }).1 = some (.value 0#32) := by decide

/-- V-K3, V-K4 and V-K8. -/
theorem test_classify : classify 40#32 40#32 = false ∧ classify 41#32 40#32 = true ∧
    classify 0xFFFFFFFF#32 0xFFFFFFFF#32 = false := by decide

/-- V-A1: the bits 0, 0, 1, 1, 0, 0, 1, 0 give 0x32. -/
theorem test_assembly :
    [false, false, true, true, false, false, true, false].foldl pushBit 0#8 = 0x32#8 := by decide

/-- V-S1, V-S2 and V-S3. -/
theorem test_checksum : known.checksumOk = true ∧ { known with b4 := 0x4E#8 }.checksumOk = false ∧
    ({ b0 := 0xFF#8, b1 := 0xFF#8, b2 := 0xFF#8, b3 := 0xFF#8, b4 := 0xFC#8 } : Sample).checksumOk = true := by decide

/-- The frame of V-W1 decodes to its five bytes at the threshold 40. -/
theorem test_frame_sample : frameSample 40#32 (frameCounts [0x32, 0x00, 0x1B, 0x00, 0x4D]) = known := by decide

/-- V-W1: the commit writes `RAW0 = 0x001B0032`, `RAW1 = 0x4D` and `TS` = 4, and STATUS then shows FRESH. -/
theorem test_commit : seen (step { running begun 0x3#4 .rCommit with stage := known, clockIn := [4#32] })
    (fun t => (t.raw0, t.raw1, t.ts, statusWord t)) = some (0x001B0032#32, 0x4D#8, 4#32, 0x00000207#32) := by decide

/-- V-W7: the abort, and then the decode step of a block with no success. -/
theorem test_abort : seen (step { running begun 0x3#4 (.rAbort .timeout) with guardActive := true }) statusWord =
    some 0x00001303#32 := by decide

/-- V-W7: the sentinel and `STATUS = 0x00001322`. -/
theorem test_decode_without_data :
    seen (step { running begun 0x3#4 .rDecode with outcome := .failed, err := .timeout })
      (fun t => (t.result, statusWord t)) = some (0x7FC00000#32, 0x00001322#32) := by decide

/-- P2 step 1: the stale cache in Fahrenheit. -/
theorem test_decode_fahrenheit :
    seen (step { running sampled 0x4#4 .rDecode with fahr := true }) (fun t => t.result) = some 0x42A13333#32 := by
  decide

/-- V-B4: a count of 79 calibrates to 197 and 39. -/
theorem test_calibrate : (budgetOf ec 79#32, thresholdOf ec 79#32) = (197#32, 39#32) := by decide

/-- V-B11: saturation. -/
theorem test_calibrate_saturates :
    budgetOf { ec with tRefUs := 1#32, budgetMarginUs := 0xFFFFFFFF#32 } 2#32 = 0xFFFFFFFF#32 ∧
    thresholdOf { ec with tRefUs := 1#32, tBitThrUs := 0x80000000#32 } 2#32 = 0xFFFFFFFF#32 := by decide

/-- V-B7: the line already high gives the defaults, and `STATUS = 0x00000012` after B_END. -/
theorem test_begin_end : seen (step (running bare 0x1#4 (.bEnd (.value 0#32))))
    (fun t => (t.budget, t.bitthr, statusWord t)) = some (1000#32, 40#32, 0x00000012#32) := by decide

/-- Group H. -/
theorem test_humidity : humOf known = 0x42480000#32 ∧ humOf { known with b0 := 0xFF#8 } = 0x437F0000#32 := by decide

/-- V-T2, V-T4 and V-T7. -/
theorem test_temperature : tempCOf known = 0x41D80000#32 ∧ tempCOf { known with b2 := 0x80#8 } = 0x80000000#32 ∧
    tempCOf { known with b2 := 0xFF#8 } = 0xC2FE0000#32 := by decide

/-- V-F12: three roundings, not one. -/
theorem test_ctof_three_roundings : ctof 0xC1880000#32 = 0x3FB33330#32 := by decide

/-- V-F8 and V-F15. -/
theorem test_ctof_values : ctof 0xC2FE0000#32 = 0xC344999A#32 ∧ ctof 0x41B80000#32 = 0x4292CCCD#32 := by decide

/-- V-F18 and V-F19: subnormals are kept, the first step overflows to an infinity. -/
theorem test_ctof_extremes : ctof 0x00000001#32 = 0x42000000#32 ∧ ctof 0x7F7FFFFF#32 = 0x7F800000#32 ∧
    f32Scale 0x00000009#32 1 5 = 0x00000002#32 := by decide

/-- V-F21, V-F23 and V-F24. -/
theorem test_ctof_special : ctof 0xFF800000#32 = 0xFF800000#32 ∧ ctof 0xFFC00001#32 = 0x7FC00000#32 ∧
    ctof 0x7F800001#32 = 0x7FC00000#32 := by decide

/-- R31: the port's outputs in its three modes. -/
theorem test_port : ({ bare with pinMode := .outLow }.pinDir, { bare with pinMode := .outLow }.pinOut, bare.pinDir) =
    (true, false, false) := by decide

/-- R117: `readTemperature(true, true)` writes the word 0x34 between two polls and reads RESULT at 0x10. -/
theorem test_call_read_temperature : callReadTemperature true true =
    [.host .waitIdle, .host (.wr 0 4 0x00000034#32), .host .waitIdle, .host (.rd 16 4)] := by decide

/-! ### Witnesses: for every obligation with hypotheses, a state and operands that meet them all -/

/-- A pending host move on a block after BEGIN. -/
def facing (op : HostOp) : State := { sampled with agenda := [.host op, .seqMove] }

theorem witness_BytesDecodeAsTheirWord :
    ([] : List Byte).length < 4 ∧ [0x01#8, 0x00#8, 0x00#8].length < 4 := by decide

theorem witness_StepRunsTheDecodedCommand :
    (bare.withFetchWord 32 0x13).agenda = cmdWrite 0x13#32 :: [] ∧ (bare.withFetchWord 32 0x13).busy = false := by
  decide

theorem witness_CommandWhileBusyIsLost :
    { running sampled 0x3#4 .rCheck with agenda := [cmdWrite 1#32] }.agenda = cmdWrite 1#32 :: [] ∧
    { running sampled 0x3#4 .rCheck with agenda := [cmdWrite 1#32] }.busy = true := by decide

/-- The first and the last register of the window. -/
theorem witness_HostReadHasNoSideEffect :
    0 < 16 ∧ (facing (.rd 0 4)).agenda = .host (.rd (4 * 0 : Nat) 4) :: [.seqMove] ∧
    15 < 16 ∧ (facing (.rd 0x3C 4)).agenda = .host (.rd (4 * 15 : Nat) 4) :: [.seqMove] := by decide

/-- An access inside, one past the end, one before the start, and an odd one inside. -/
theorem witness_OnlyDefinedAccessesHaveAStep :
    (facing (.rd 0x3C 4)).agenda = .host (.rd 0x3C 4) :: [.seqMove] ∧ (HostOp.rd 0x3C 4).wf = true ∧
    offsetInWindow 0x40 = false ∧ offsetInWindow (-1) = false ∧
    offsetInWindow 0x3F = true ∧ (widthDefined 4 && offsetAligned 0x3F) = false ∧
    offsetInWindow 0x00 = true ∧ (widthDefined 2 && offsetAligned 0x00) = false := by decide

theorem witness_OnlyDefinedAccessesHaveAStep_next :
    seen (step (facing (.rd 0x3C 4))) (fun t => t.rdata) = some 0#32 := by decide

/-- STATUS, SETTLE and the first and last reserved offsets. -/
theorem witness_ReadOnlyOffsetsIgnoreWrites :
    1 < 16 ∧ writableOffset (4 * 1) = false ∧
    (facing (.wr 4 4 7#32)).agenda = .host (.wr (4 * 1 : Nat) 4 7#32) :: [.seqMove] ∧
    writableOffset (4 * 10) = false ∧ writableOffset (4 * 11) = false ∧ 15 < 16 ∧ writableOffset (4 * 15) = false ∧
    (facing (.wr 0x3C 4 7#32)).agenda = .host (.wr (4 * 15 : Nat) 4 7#32) :: [.seqMove] ∧ 11 ≤ 11 ∧ 11 ≤ 15 := by
  decide

theorem witness_ConfigWritableOnlyBeforeBegin :
    { bare with agenda := [.host (.wr 0x08 4 5#32)] }.agenda = .host (.wr 0x08 4 5#32) :: [] ∧
    (bare.init = false ∧ bare.busy = false) ∧ begun.init = true ∧
    (running bare 0x1#4 .bHigh).busy = true := by decide

theorem witness_ArgWritableAtAnyTime :
    { running sampled 0x3#4 .rCheck with agenda := [.host (.wr 0x0C 4 5#32)] }.agenda =
      .host (.wr 0x0C 4 5#32) :: [] := by decide

theorem witness_CacheBytesAtTheirPlaces : sampled.raw0 = known.raw0 ∧ sampled.raw1 = known.b4 := by decide

theorem witness_WaitIdlePollsBusy : (facing .waitIdle).agenda = .host .waitIdle :: [.seqMove] ∧
    (facing .waitIdle).busy = false ∧ (running (facing .waitIdle) 0x3#4 .rCheck).busy = true := by decide

/-- The turn is the sequencer's where the agenda is empty, and where it names it, with moves still to come. -/
def turn (s : State) : State := { s with agenda := [.seqMove, .host .waitIdle] }

theorem witness_IdleBlockWaits : (sequencerMoves sampled ∧ sampled.seq = .idle) ∧
    sequencerMoves (turn sampled) ∧ (turn sampled).seq = .idle := ⟨⟨.inl rfl, rfl⟩, .inr rfl, rfl⟩

theorem witness_ResetStepRestoresTheTable :
    { running sampled 0x3#4 (.rMeas 5) with agenda := [.rst] }.agenda = .rst :: [] := by decide

/-- A word with every ignored bit set. -/
theorem witness_NopChangesNoState : opField 0xFFFFFFF0#32 = 0x0#4 ∧
    { sampled with agenda := [cmdWrite 0xFFFFFFF0#32] }.agenda = cmdWrite 0xFFFFFFF0#32 :: [] ∧
    sampled.busy = false := by decide

theorem witness_ReservedOpcodesOnlySetBadCmd : .reserved6 ∈ reservedCommands ∧ .reservedF ∈ reservedCommands ∧
    6 ≤ (opField 0x00000036#32).toNat ∧ 6 ≤ (opField 0xFFFFFFFF#32).toNat ∧
    ¬ 6 ≤ (opField 0x00000005#32).toNat := by decide

theorem witness_AccessorBeforeBeginIsNotInit : bare.init = false := by decide

theorem witness_BeginRefusesReservedType : { bare with configType := 0x01#8 }.configType ≠ 0x00#8 ∧
    { begun with configType := 0xFF#8 }.configType ≠ 0x00#8 := by decide

theorem witness_BeginIsAcceptedAndStarts : bare.configType = 0x00#8 := by decide

theorem witness_AccessorIsAcceptedAndStarts : begun.init = true := by decide

/-- No low sample, and exactly `BUDGET_DEFAULT` of them. -/
theorem witness_BeginCalibratesOnTheReferencePulse :
    { bare with lineIn := [true, false] }.agenda = [] ∧ { bare with lineIn := [true, false] }.configType = 0x00#8 ∧
    0 ≤ bare.params.budgetDefault.toNat ∧ { bare with lineIn := [true, false] }.lineIn = pulse false 0 ++ [false] ∧
    3 ≤ { bare with inst := some ecSmall }.params.budgetDefault.toNat ∧
    { bare with inst := some ecSmall, lineIn := [false, false, false, true] }.lineIn = pulse false 3 ++ [] ∧
    settleDefault bare = bare.params.settleDefaultUs ∧ settleArg bare = bare.arg.extractLsb' 0 16 := by decide

theorem witness_BeginFallsBackOnAStuckLine :
    { bare with inst := some ecSmall, lineIn := [false, false, false, false] }.agenda = [] ∧
    { bare with inst := some ecSmall, lineIn := [false, false, false, false] }.configType = 0x00#8 ∧
    { bare with inst := some ecSmall, lineIn := [false, false, false, false] }.lineIn =
      List.replicate ({ bare with inst := some ecSmall }.params.budgetDefault.toNat + 1) false ++ [] := by decide

theorem witness_CalibrationFormula : ec.wf = true ∧ { ec with tRefUs := 1#32 }.wf = true := by decide

/-- A data bit's high pulse of two samples, an empty one, a stuck one, and a counter at the bound. -/
theorem witness_MeasureCountsAPulse :
    { running begun 0x3#4 (.rMeas 3) with lineIn := [true, true, false] }.agenda = [] ∧
    { running begun 0x3#4 (.rMeas 3) with lineIn := [true, true, false] }.seq = .run (.rMeas 3) ∧
    (running begun 0x3#4 (.rMeas 3)).cnt = 0#32 ∧ 2 ≤ (running begun 0x3#4 (.rMeas 3)).budget.toNat ∧
    { running begun 0x3#4 (.rMeas 3) with lineIn := [true, true, false] }.lineIn = pulse (pulseLevel 3) 2 ++ [] ∧
    [true] = pulse (pulseLevel 0) 0 ++ [] ∧
    { running { begun with budget := 1#32 } 0x3#4 (.rMeas 81) with lineIn := [true, true, false] }.lineIn =
      List.replicate ({ begun with budget := 1#32 }.budget.toNat + 1) (pulseLevel 81) ++ [false] ∧
    { begun with cnt := 200#32 }.cnt.toNat ≤ begun.budget.toNat ∧
    (measureSample true 200#32 { begun with cnt := 199#32, lineIn := [true] }).1 = none := by decide

theorem witness_EightBitsAssembleMsbFirst :
    [true, false, false, false, false, true, false, true].length = 8 ∧ 0 < 8 ∧ 7 < 8 := by decide

/-- 1999 ms, 2000 ms, force, and no prior success. -/
theorem witness_RateLimitSkipsTheWireCycle :
    (running sampled 0x3#4 .rCheck).seq = .run .rCheck ∧
    (sampled.force = false ∧ sampled.valid = true ∧
      ({ sampled with clockIn := [0x00001B5B#32] }.clockWord.toNat + (2 ^ 32 - sampled.ts.toNat)) % 2 ^ 32 < 2000) ∧
    2000 ≤ ({ sampled with clockIn := [0x00001B5C#32] }.clockWord.toNat + (2 ^ 32 - sampled.ts.toNat)) % 2 ^ 32 ∧
    { sampled with force := true }.force = true ∧ begun.valid = false := by decide

/-- The frame of V-W1. -/
theorem witness_RefreshCommitsTheFrame :
    (asking (pulsesFrom 0 (frameCounts [0x32, 0x00, 0x1B, 0x00, 0x4D]) ++ [])).agenda = [] ∧
    (asking []).seq = .run .rCheck ∧
    skips (asking []).force (asking []).valid (asking []).clockWord (asking []).ts = false ∧
    (frameCounts [0x32, 0x00, 0x1B, 0x00, 0x4D]).length = 82 ∧
    (∀ c ∈ frameCounts [0x32, 0x00, 0x1B, 0x00, 0x4D], c ≤ (asking []).budget.toNat) ∧
    (frameSample (asking []).bitthr (frameCounts [0x32, 0x00, 0x1B, 0x00, 0x4D])).checksumOk = true := by decide

/-- The frame of V-W6. -/
theorem witness_RefreshRejectsABadChecksum :
    (asking (pulsesFrom 0 (frameCounts [0x32, 0x00, 0x1B, 0x00, 0x4E]) ++ [])).agenda = [] ∧
    (asking []).seq = .run .rCheck ∧
    skips (asking []).force (asking []).valid (asking []).clockWord (asking []).ts = false ∧
    (frameCounts [0x32, 0x00, 0x1B, 0x00, 0x4E]).length = 82 ∧
    (∀ c ∈ frameCounts [0x32, 0x00, 0x1B, 0x00, 0x4E], c ≤ (asking []).budget.toNat) ∧
    (frameSample (asking []).bitthr (frameCounts [0x32, 0x00, 0x1B, 0x00, 0x4E])).checksumOk = false := by decide

/-- The first pulse stuck (V-W7), and the last of a frame (V-W10). -/
theorem witness_RefreshTimesOutAtAnyPulse :
    ([] : List Nat).length < 82 ∧ (∀ c ∈ ([] : List Nat), c ≤ (asking []).budget.toNat) ∧
    ((frameCounts [0x32, 0x00, 0x1B, 0x00, 0x4D]).take 81).length < 82 ∧
    (∀ c ∈ (frameCounts [0x32, 0x00, 0x1B, 0x00, 0x4D]).take 81, c ≤ (asking []).budget.toNat) ∧
    skips (asking []).force (asking []).valid (asking []).clockWord (asking []).ts = false := by decide

theorem witness_RefreshTimesOutAtAnyPulse_line :
    (asking (pulsesFrom 0 [] ++ (List.replicate ((asking []).budget.toNat + 1) (pulseLevel 0) ++ []))).lineIn =
      pulsesFrom 0 [] ++
        (List.replicate ((asking []).budget.toNat + 1) (pulseLevel ([] : List Nat).length) ++ []) := rfl

/-- The turn of a block at any phase, both ways: the premises of the statements about one micro-step, together. -/
theorem witness_micro_step (s : State) (opc : BitVec 4) (p : Phase) (h : s.agenda = []) :
    (sequencerMoves (running s opc p) ∧ (running s opc p).seq = .run p) ∧
    sequencerMoves (turn (running s opc p)) ∧ (turn (running s opc p)).seq = .run p :=
  ⟨⟨.inl h, rfl⟩, .inr rfl, rfl⟩

theorem witness_RateLimitSkipsTheWireCycle_turn :
    sequencerMoves (running sampled 0x3#4 .rCheck) ∧ sequencerMoves (turn (running sampled 0x3#4 .rCheck)) :=
  ⟨.inl rfl, .inr rfl⟩

theorem witness_AbortPathTakesOneStep : sequencerMoves (turn (running begun 0x3#4 (.rAbort .timeout))) ∧
    (turn (running begun 0x3#4 (.rAbort .timeout))).seq = .run (.rAbort .timeout) ∧
    sequencerMoves (running begun 0x3#4 (.rAbort .checksumMismatch)) ∧
    (running begun 0x3#4 (.rAbort .checksumMismatch)).seq = .run (.rAbort .checksumMismatch) :=
  ⟨.inr rfl, rfl, .inl rfl, rfl⟩

theorem witness_DecodeStepWritesTheResult : sequencerMoves (turn (running sampled 0x3#4 .rDecode)) ∧
    (running sampled 0x3#4 .rDecode).seq = .run .rDecode ∧
    (running sampled 0x3#4 .rDecode).op = 0x3#4 ∧ (running begun 0x4#4 .rDecode).op = 0x4#4 :=
  ⟨.inr rfl, rfl, rfl, rfl⟩

theorem witness_OutputPortsFollowTheMode : { bare with pinMode := .outHigh }.pinMode = .outHigh ∧
    { bare with pinMode := .outLow }.pinMode = .outLow ∧ bare.pinMode = .inPullup := by decide

theorem witness_DriveAndWaitPhases : sequencerMoves (turn (running bare 0x1#4 .bHighWait)) ∧
    (turn (running bare 0x1#4 .bHighWait)).seq = .run .bHighWait := (witness_micro_step bare 0x1#4 .bHighWait rfl).2

theorem witness_GuardValidateAndCommitPhases : sequencerMoves (turn (running begun 0x3#4 .rValidate)) ∧
    (turn (running begun 0x3#4 .rValidate)).seq = .run .rValidate := (witness_micro_step begun 0x3#4 .rValidate rfl).2

/-- One sample: the turn, the last pulse, a level and a count on each side of the bound (V-M3, V-M4). -/
theorem witness_OneSampleStep :
    (sequencerMoves (turn (running begun 0x3#4 (.rMeas 81))) ∧
      (turn (running begun 0x3#4 (.rMeas 81))).seq = .run (.rMeas 81)) ∧
    { begun with lineIn := [false] }.lineBit ≠ pulseLevel 81 ∧ { begun with lineIn := [true] }.lineBit = pulseLevel 81 ∧
    begun.budget ≤ 200#32 ∧ (199#32 : Word) < begun.budget ∧
    { bare with lineIn := [true] }.lineBit = true ∧ { bare with lineIn := [false] }.lineBit = false ∧
    bare.params.budgetDefault ≤ 1000#32 ∧ (999#32 : Word) < bare.params.budgetDefault :=
  ⟨(witness_micro_step begun 0x3#4 (.rMeas 81) rfl).2, by decide⟩

/-- No reference pulse, an empty one, and one of one sample. -/
theorem witness_EndOfBeginTakesOneStep :
    (sequencerMoves (turn (running bare 0x1#4 (.bEnd .timeout))) ∧
      (turn (running bare 0x1#4 (.bEnd .timeout))).seq = .run (.bEnd .timeout)) ∧
    (sequencerMoves (turn (running bare 0x1#4 (.bEnd (.value 0#32)))) ∧
      (turn (running bare 0x1#4 (.bEnd (.value 0#32)))).seq = .run (.bEnd (.value 0#32))) ∧
    (sequencerMoves (turn (running bare 0x1#4 (.bEnd (.value 1#32)))) ∧
      (turn (running bare 0x1#4 (.bEnd (.value 1#32)))).seq = .run (.bEnd (.value 1#32))) ∧ (1#32 : Word) ≠ 0#32 :=
  ⟨(witness_micro_step bare 0x1#4 _ rfl).2, (witness_micro_step bare 0x1#4 _ rfl).2,
    (witness_micro_step bare 0x1#4 _ rfl).2, by decide⟩

theorem witness_TemperatureIsSignAndMagnitude : { known with b2 := 0x80#8 }.b2 = 0x80#8 := by decide

theorem witness_RoundingIsNearestTiesToEven : 0 < 5 ∧ Representable 9 ∧ Representable (2 ^ 24 + 2) ∧
    2 ^ 24 + 2 ≠ roundUnits (2 ^ 24 + 1) 1 ∧
    ((roundUnits (2 ^ 24 + 1) 1 * 1 : Int) - (2 ^ 24 + 1 : Nat)).natAbs =
      (((2 ^ 24 + 2 : Nat) * 1 : Int) - (2 ^ 24 + 1 : Nat)).natAbs :=
  ⟨by decide, ⟨9, 0, by decide, by decide⟩, ⟨2 ^ 23 + 1, 1, by decide, by decide⟩, by decide, by decide⟩

/-- Zero, the least subnormal, the greatest finite value, and the least magnitude past it. -/
theorem witness_PatternsHoldTheirValues :
    (Representable 0 ∧ 0 < f32Overflow) ∧ (Representable 1 ∧ 1 < f32Overflow) ∧
    (Representable ((2 ^ 24 - 1) * 2 ^ 253) ∧ (2 ^ 24 - 1) * 2 ^ 253 < f32Overflow) ∧
    f32Expo 0x80000001#32 ≠ 0xFF ∧ f32Overflow ≤ 2 ^ 149 * 2 ^ 128 :=
  ⟨⟨⟨0, 0, by decide, by decide⟩, by decide⟩, ⟨⟨1, 0, by decide, by decide⟩, by decide⟩,
    ⟨⟨2 ^ 24 - 1, 253, by decide, rfl⟩, by decide⟩, by decide, by decide⟩

/-- A NaN, an infinity, V-F19's overflow, V-F2's steps, and the operand whose scaled value is exactly -32. -/
theorem witness_CtofIsThreeRoundings : isNaN 0x7F800001#32 = true ∧ isInf 0xFF800000#32 = true ∧
    (f32Expo 0x7F7FFFFF#32 ≠ 0xFF ∧ isInf (rne (f32Sign 0x7F7FFFFF#32) (f32Units 0x7F7FFFFF#32 * 9) 1) = true) ∧
    (f32Expo 0x42C80000#32 ≠ 0xFF ∧ 0x44610000#32 = rne (f32Sign 0x42C80000#32) (f32Units 0x42C80000#32 * 9) 1 ∧
      isInf 0x44610000#32 = false ∧ 0x43340000#32 = rne (f32Sign 0x44610000#32) (f32Units 0x44610000#32) 5 ∧
      f32Int 0x43340000#32 + 32 * 2 ^ 149 ≠ 0) ∧
    f32Int (rne true (f32Units (rne true (f32Units 0xC18E38E4#32 * 9) 1)) 5) + 32 * 2 ^ 149 = 0 := by decide

theorem witness_WorkedExampleDecodes : sequencerMoves (turn (running sampled 0x3#4 .rDecode)) ∧
    (running sampled 0x3#4 .rDecode).seq = .run .rDecode ∧
    sampled.valid = true ∧ sampled.raw0 = 0x001B0032#32 ∧ sampled.raw1 = 0x4D#8 ∧
    (running sampled 0x3#4 .rDecode).op = 0x3#4 ∧
    ((running sampled 0x4#4 .rDecode).op = 0x4#4 ∧ (running sampled 0x4#4 .rDecode).fahr = false) :=
  ⟨.inr rfl, by decide⟩

/-- The invariant holds of a block with a valid cache that measures a data bit while the host waits. -/
theorem witness_inv : Inv { running (facing .waitIdle) 0x4#4 (.rMeas 5) with guardActive := true, bitk := 1 } := by
  constructor <;> first | decide | exact Nat.zero_le _ | exact fun _ => rfl

/-- The invariant holds of a block that calibrates, its counter at `BUDGET_DEFAULT`. -/
theorem witness_inv_begin :
    Inv { running bare 0x1#4 .bRef with guardActive := true, cnt := 1000#32, lineIn := [false] } := by
  constructor <;> first | decide | exact Nat.zero_le _ | exact Nat.le_refl _ | exact fun _ => rfl | exact trivial

theorem witness_EveryStepKeepsTheInvariant :
    ∃ t, step { running bare 0x1#4 .bRef with guardActive := true, cnt := 1000#32, lineIn := [false] } = .next t :=
  ⟨_, rfl⟩

theorem witness_EveryCommandEnds : { running bare 0x1#4 .bRef with cnt := 1000#32 }.agenda = [] := by decide

theorem witness_EveryAccessorEndsWithItsResult : sampled.agenda = [] ∧ sampled.init = true ∧
    Instr.readTemp true false = .readTemp true false := by decide

theorem witness_WaitIdleReturns :
    { running (facing .waitIdle) 0x4#4 (.rMeas 5) with guardActive := true, bitk := 1 }.agenda =
      .host .waitIdle :: [.seqMove] := by decide

/-- A commit changes RAW0, RAW1, TS and VALID; the end of BEGIN clears VALID. -/
theorem witness_OnlyCommitAndBeginWriteTheCache :
    seen (step { running begun 0x3#4 .rCommit with stage := known, clockIn := [4#32] })
      (fun t => decide (t.raw0 ≠ begun.raw0 ∧ t.raw1 ≠ begun.raw1 ∧ t.ts ≠ begun.ts ∧ t.valid ≠ begun.valid)) =
        some true ∧
    seen (step (running sampled 0x1#4 (.bEnd .timeout))) (fun t => (sampled.valid, t.valid)) = some (true, false) := by
  decide

/-- Each register changes in some step: B_END, writes of ARG and CONFIG, BEGIN, a decode and a conversion. -/
theorem witness_EachRegisterHasItsWriters :
    seen (step (running bare 0x1#4 (.bEnd (.value 80#32))))
      (fun t => decide (t.budget ≠ bare.budget ∧ t.bitthr ≠ bare.bitthr)) = some true ∧
    seen (step (running bare 0x1#4 (.bEnd .timeout))) (fun t => decide (t.caldef ≠ bare.caldef)) = some true ∧
    seen (step { bare with agenda := [.host (.wr 0x0C 4 5#32)] }) (fun t => decide (t.arg ≠ bare.arg)) = some true ∧
    seen (step { bare with agenda := [.host (.wr 0x08 4 5#32)] }) (fun t => decide (t.configType ≠ bare.configType)) =
      some true ∧
    seen (step { bare with agenda := [cmdWrite 1#32] }) (fun t => decide (t.settle ≠ bare.settle)) = some true ∧
    seen (step (running sampled 0x3#4 .rDecode)) (fun t => decide (t.result ≠ sampled.result)) = some true ∧
    seen (step { bare with agenda := [cmdWrite 5#32] }) (fun t => decide (t.result ≠ bare.result)) = some true ∧
    seen (step (running bare 0x1#4 (.bEnd .timeout))) (fun t => decide (t.init ≠ bare.init)) = some true ∧
    seen (step { bare with agenda := [cmdWrite 3#32] })
      (fun t => decide (t.nodata ≠ bare.nodata ∧ t.err ≠ bare.err)) = some true ∧
    seen (step { running begun 0x3#4 (.rAbort .timeout) with guardActive := true })
      (fun t => decide (t.outcome ≠ begun.outcome ∧ t.err ≠ begun.err ∧ t.guardActive ≠ true)) = some true ∧
    seen (step { begun with agenda := [cmdWrite 4#32] }) (fun t => decide (t.busy ≠ begun.busy)) = some true ∧
    ({ bare with agenda := [cmdWrite 5#32] } : State).agenda.head? ≠ some .rst := by decide

theorem witness_SamplesOnlyWhileReleasedAndGuarded :
    seen (step { running bare 0x1#4 .bRef with guardActive := true, cnt := 1000#32, lineIn := [false] })
      (fun t => decide (t.lineTaken ≠ bare.lineTaken)) = some true := by decide

theorem witness_IrqSuppressFollowsTheGuard : bare.params.guardEn = true ∧
    { bare with inst := some { ec with guardEn := false } }.params.guardEn = false := by decide

/-- A block that steps, one that stops with a fault and one with a refusal, and one that is not there. -/
theorem witness_BlocksShareNoState_stops : ([bare, facing (.rd 0x11 1), facing (.rd 0x40 4)] : Platform)[0]? = some bare ∧
    faults (step (facing (.rd 0x11 1))) = true ∧ refuses (step (facing (.rd 0x40 4))) = true ∧
    ([bare] : Platform)[1]? = none := by decide

theorem witness_BlocksShareNoState :
    ∃ cs, Platform.stepBlock [bare, running sampled 0x3#4 (.rAbort .timeout)] 1 = .next cs :=
  ⟨_, rfl⟩

end Sys2Proof.Tests
end

section
/-! PROOFS. Binary32 rounding and patterns (`00_scope.md` R14), and the calibration functions (R9). -/

namespace Sys2Proof.Machine

/-! ### Magnitudes of 24 significant bits -/

/-- The bound `2^24` itself is included: it has one significant bit. -/
theorem representable_mul_two_pow {k : Nat} (s : Nat) (hk : k ≤ 2 ^ 24) : Representable (k * 2 ^ s) := by
  rcases Nat.lt_or_eq_of_le hk with hlt | rfl
  · exact ⟨k, s, hlt, rfl⟩
  · exact ⟨1, 24 + s, by decide, by rw [Nat.pow_add, Nat.one_mul]⟩

/-- A magnitude that needs no more than 24 bits has no significant bit below `2^s` once it reaches `2^23 * 2^s`. -/
theorem Representable.two_pow_dvd {r s : Nat} (hr : Representable r) (hle : 2 ^ 23 * 2 ^ s ≤ r) : 2 ^ s ∣ r := by
  obtain ⟨a, e, ha, rfl⟩ := hr
  have hse : s ≤ e := by
    refine Nat.not_lt.1 fun hes => ?_
    have hstep : 2 * 2 ^ e ≤ 2 ^ s := by
      rw [← Nat.pow_succ']
      exact Nat.pow_le_pow_right (by decide) hes
    have hlt : a * 2 ^ e < 2 ^ 24 * 2 ^ e := Nat.mul_lt_mul_of_pos_right ha (Nat.two_pow_pos e)
    omega
  exact Nat.dvd_mul_left_of_dvd (Nat.pow_dvd_pow 2 hse) a

/-! ### Rounding to nearest -/

section
variable (num den : Nat)

/-- The significand of `num / den` units rounded toward zero: the whole quanta in it. -/
def truncatedSignificand : Nat := num / (den * f32Quantum num den)

/-- What truncation leaves, in units of `1 / den`: less than a quantum, which is `den * f32Quantum num den` there. -/
def truncationRest : Nat := num % (den * f32Quantum num den)

theorem f32Quantum_pos : 0 < f32Quantum num den := Nat.two_pow_pos _

theorem truncatedSignificand_eq : truncatedSignificand num den = num / den / f32Quantum num den :=
  (Nat.div_div_eq_div_mul ..).symm

theorem eq_truncated_add_rest :
    num = truncatedSignificand num den * (den * f32Quantum num den) + truncationRest num den :=
  (Nat.div_add_mod' ..).symm

theorem truncationRest_lt {den : Nat} (hden : 0 < den) : truncationRest num den < den * f32Quantum num den :=
  Nat.mod_lt _ (Nat.mul_pos hden (f32Quantum_pos num den))

theorem truncatedSignificand_lt : truncatedSignificand num den < 2 ^ 24 := by
  rw [truncatedSignificand_eq, Nat.div_lt_iff_lt_mul (f32Quantum_pos num den), f32Quantum, ← Nat.pow_add]
  exact Nat.lt_of_lt_of_le Nat.lt_log2_self (Nat.pow_le_pow_right (by decide) (by omega))

/-- The quantum is one unit, or the truncated significand has all its 24 bits. -/
theorem f32Quantum_eq_one_or_le_significand : f32Quantum num den = 1 ∨ 2 ^ 23 ≤ truncatedSignificand num den := by
  rcases Nat.le_total (Nat.log2 (num / den)) 23 with hsmall | hlarge
  · left; rw [f32Quantum, Nat.sub_eq_zero_of_le hsmall, Nat.pow_zero]
  · right
    have hne : num / den ≠ 0 := by
      intro h
      rw [h] at hlarge
      exact absurd hlarge (by decide)
    rw [truncatedSignificand_eq, Nat.le_div_iff_mul_le (f32Quantum_pos num den), f32Quantum, ← Nat.pow_add,
      Nat.add_sub_cancel' hlarge]
    exact Nat.log2_self_le hne

/-- `roundUnits` truncates below the middle, or at it with an even significand, and otherwise goes up (R14). -/
theorem roundUnits_cases :
    ∃ k, roundUnits num den = k * f32Quantum num den ∧
      (k = truncatedSignificand num den ∧ 2 * truncationRest num den < den * f32Quantum num den ∨
        k = truncatedSignificand num den + 1 ∧ den * f32Quantum num den < 2 * truncationRest num den ∨
        (k = truncatedSignificand num den ∨ k = truncatedSignificand num den + 1) ∧
          2 * truncationRest num den = den * f32Quantum num den ∧ k % 2 = 0) := by
  refine ⟨_, rfl, ?_⟩
  unfold truncatedSignificand truncationRest
  split
  · omega
  · split
    · omega
    · split <;> omega

theorem representable_roundUnits : Representable (roundUnits num den) := by
  obtain ⟨k, h, hk⟩ := roundUnits_cases num den
  have hlt := truncatedSignificand_lt num den
  rw [h]
  exact representable_mul_two_pow _ (by omega)

/-- No representable magnitude stands strictly between the two neighbours `roundUnits` chooses from. -/
theorem Representable.le_or_ge_neighbours {r : Nat} (hr : Representable r) :
    r ≤ truncatedSignificand num den * f32Quantum num den ∨
      (truncatedSignificand num den + 1) * f32Quantum num den ≤ r := by
  refine Decidable.or_iff_not_not_and_not.2 fun ⟨hlow, hhigh⟩ => ?_
  rw [Nat.not_le] at hlow hhigh
  have hdvd : f32Quantum num den ∣ r := by
    rcases f32Quantum_eq_one_or_le_significand num den with hone | hfull
    · exact hone ▸ Nat.one_dvd r
    · exact hr.two_pow_dvd (Nat.le_trans (Nat.mul_le_mul_right _ hfull) (Nat.le_of_lt hlow))
  obtain ⟨k, rfl⟩ := hdvd
  rw [Nat.mul_comm (f32Quantum num den)] at hlow hhigh
  have hk_gt := Nat.lt_of_mul_lt_mul_right hlow
  have hk_lt := Nat.lt_of_mul_lt_mul_right hhigh
  omega

/-- The same in units of `1 / den`, where the neighbours are a distance of `den * f32Quantum num den` apart. -/
theorem Representable.scaled_le_or_ge_neighbours {r : Nat} (hr : Representable r) :
    r * den ≤ truncatedSignificand num den * (den * f32Quantum num den) ∨
      truncatedSignificand num den * (den * f32Quantum num den) + den * f32Quantum num den ≤ r * den := by
  have hscale (k : Nat) : k * (den * f32Quantum num den) = k * f32Quantum num den * den := by
    rw [Nat.mul_comm den, Nat.mul_assoc]
  rw [← Nat.succ_mul, hscale, hscale]
  exact (hr.le_or_ge_neighbours num den).imp (Nat.mul_le_mul_right den) (Nat.mul_le_mul_right den)

/-- The distance from the magnitude `r` to `num / den`, in units of `1 / den`. -/
def roundingError (r : Nat) : Nat := ((r * den : Int) - num).natAbs

variable {den : Nat}

/-- A representable magnitude other than the chosen one is farther away, or as far with an even choice. -/
theorem roundUnits_closer_or_even (hden : 0 < den) {r : Nat} (hr : Representable r)
    (hne : r ≠ roundUnits num den) :
    roundingError num den (roundUnits num den) < roundingError num den r ∨
      roundingError num den (roundUnits num den) = roundingError num den r ∧
        roundUnits num den / f32Quantum num den % 2 = 0 := by
  have hnum := eq_truncated_add_rest num den
  have hrest := truncationRest_lt num hden
  have hgap := hr.scaled_le_or_ge_neighbours num den
  have hne' : r * den ≠ roundUnits num den * den := fun h => hne (Nat.eq_of_mul_eq_mul_right hden h)
  unfold roundingError
  obtain ⟨k, h, hk⟩ := roundUnits_cases num den
  have hdiv : roundUnits num den / f32Quantum num den = k := by
    rw [h, Nat.mul_div_cancel _ (f32Quantum_pos num den)]
  have hscaled : roundUnits num den * den = k * (den * f32Quantum num den) := by
    rw [h, Nat.mul_assoc, Nat.mul_comm den]
  have hside : k = truncatedSignificand num den ∨ k = truncatedSignificand num den + 1 := by omega
  rw [hdiv]
  rcases hside with rfl | rfl
  · omega
  · rw [Nat.succ_mul] at hscaled
    omega

end

/-- Settles O39: the two neighbours of the exact magnitude enclose it with nothing representable between them, and
`roundUnits` takes the nearer one. -/
theorem roundingIsNearestTiesToEven : Obligations.RoundingIsNearestTiesToEven := by
  intro num den hden
  refine ⟨representable_roundUnits num den, fun r hr => ?_, fun r hr hne heq => ?_⟩
  · by_cases hrc : r = roundUnits num den
    · exact Nat.le_of_eq (by rw [hrc])
    · rcases roundUnits_closer_or_even num hden hr hrc with hlt | ⟨heq, -⟩
      · exact Nat.le_of_lt hlt
      · exact Nat.le_of_eq heq
  · rcases roundUnits_closer_or_even num hden hr hne with hlt | ⟨-, heven⟩
    · exact absurd heq (Nat.ne_of_lt hlt)
    · exact heven

/-! ### The fields of a pattern -/

section
variable {expo frac : Nat} (sign : Bool) (he : expo < 2 ^ 8) (hf : frac < 2 ^ 23)
include he hf

theorem f32Pack_toNat : (f32Pack sign expo frac).toNat = sign.toNat * 2 ^ 31 + expo * 2 ^ 23 + frac := by
  have := Bool.toNat_le sign
  rw [f32Pack, BitVec.toNat_ofNat, Nat.mod_eq_of_lt (by omega)]

theorem f32Sign_f32Pack : f32Sign (f32Pack sign expo frac) = sign := by
  rw [f32Sign, ← BitVec.testBit_toNat, f32Pack_toNat sign he hf, Nat.testBit_eq_decide_div_mod_eq]
  cases sign with
  | false => exact decide_eq_false (by rw [Bool.toNat_false]; omega)
  | true => exact decide_eq_true (by rw [Bool.toNat_true]; omega)

theorem f32Expo_f32Pack : f32Expo (f32Pack sign expo frac) = expo := by
  rw [f32Expo, BitVec.extractLsb'_toNat, f32Pack_toNat sign he hf, Nat.shiftRight_eq_div_pow]
  omega

theorem f32Frac_f32Pack : f32Frac (f32Pack sign expo frac) = frac := by
  rw [f32Frac, BitVec.extractLsb'_toNat, f32Pack_toNat sign he hf, Nat.shiftRight_zero]
  omega

theorem f32Units_f32Pack :
    f32Units (f32Pack sign expo frac) = if expo = 0 then frac else (2 ^ 23 + frac) * 2 ^ (expo - 1) := by
  rw [f32Units, f32Expo_f32Pack sign he hf, f32Frac_f32Pack sign he hf]

end

theorem f32Expo_lt (v : Word) : f32Expo v < 2 ^ 8 := BitVec.isLt _

theorem f32Frac_lt (v : Word) : f32Frac v < 2 ^ 23 := BitVec.isLt _

/-- A pattern is its three fields. -/
theorem f32Pack_fields (v : Word) : f32Pack (f32Sign v) (f32Expo v) (f32Frac v) = v := by
  apply BitVec.eq_of_toNat_eq
  rw [f32Pack_toNat _ (f32Expo_lt v) (f32Frac_lt v), f32Sign, f32Expo, f32Frac, BitVec.extractLsb'_toNat,
    BitVec.extractLsb'_toNat, ← BitVec.testBit_toNat, Nat.toNat_testBit, Nat.shiftRight_eq_div_pow,
    Nat.shiftRight_zero]
  omega

/-! ### Encoding a magnitude -/

/-- Below the overflow the leading bit is worth less than `2^128`, in units of 2^-149. -/
theorem lt_f32Overflow_iff {n : Nat} (hn : n ≠ 0) : n < f32Overflow ↔ Nat.log2 n < 128 + 149 := by
  simp only [Nat.log2_lt hn, f32Overflow, Nat.pow_add]

theorem two_pow_23_lt_f32Overflow : 2 ^ 23 < f32Overflow := by decide

theorem f32Encode_of_overflow (sign : Bool) {n : Nat} (h : f32Overflow ≤ n) :
    f32Encode sign n = f32Pack sign 0xFF 0 := if_pos h

theorem f32Encode_of_subnormal (sign : Bool) {n : Nat} (h : n < 2 ^ 23) : f32Encode sign n = f32Pack sign 0 n := by
  rw [f32Encode, if_neg (Nat.not_le.2 (Nat.lt_trans h two_pow_23_lt_f32Overflow)), if_pos h]

/-- A significand `2^23 + frac` at the place `e` is encoded with the exponent field `e + 1`. -/
theorem f32Encode_of_normal (sign : Bool) {e frac : Nat} (he : e < 254) (hf : frac < 2 ^ 23) :
    f32Encode sign ((2 ^ 23 + frac) * 2 ^ e) = f32Pack sign (e + 1) frac := by
  have hpos : 0 < 2 ^ e := Nat.two_pow_pos e
  have hne : (2 ^ 23 + frac) * 2 ^ e ≠ 0 := Nat.ne_of_gt (Nat.mul_pos (by omega) hpos)
  have hlog : Nat.log2 ((2 ^ 23 + frac) * 2 ^ e) = 23 + e := by
    refine (Nat.log2_eq_iff hne).2 ⟨?_, ?_⟩
    · rw [Nat.pow_add]
      exact Nat.mul_le_mul_right _ (by omega)
    · rw [Nat.add_right_comm, Nat.pow_add]
      exact Nat.mul_lt_mul_of_pos_right (by omega) hpos
  have hfin : (2 ^ 23 + frac) * 2 ^ e < f32Overflow := (lt_f32Overflow_iff hne).2 (by omega)
  have hnorm : 2 ^ 23 ≤ (2 ^ 23 + frac) * 2 ^ e :=
    Nat.le_trans (Nat.le_add_right _ _) (Nat.le_mul_of_pos_right _ hpos)
  rw [f32Encode, if_neg (Nat.not_le.2 hfin), if_neg (Nat.not_lt.2 hnorm), hlog, Nat.add_sub_cancel_left,
    Nat.mul_div_cancel _ hpos, Nat.add_sub_cancel_left]
  congr 1
  omega

/-- The two shapes of a finite representable magnitude: subnormal, or with a leading 1. -/
theorem Representable.subnormal_or_normal {n : Nat} (hn : Representable n) (hlt : n < f32Overflow) :
    n < 2 ^ 23 ∨ ∃ e frac, e < 254 ∧ frac < 2 ^ 23 ∧ n = (2 ^ 23 + frac) * 2 ^ e := by
  rcases Nat.lt_or_ge n (2 ^ 23) with hsub | hnorm
  · exact .inl hsub
  · have hne : n ≠ 0 := by omega
    have hlog : 23 ≤ Nat.log2 n := (Nat.le_log2 hne).2 hnorm
    obtain ⟨e, he⟩ := Nat.exists_eq_add_of_le hlog
    have he_lt : e < 254 := by have := (lt_f32Overflow_iff hne).1 hlt; omega
    have hlow : 2 ^ 23 * 2 ^ e ≤ n := by
      rw [← Nat.pow_add, ← he]
      exact Nat.log2_self_le hne
    have hhigh : n < 2 ^ 24 * 2 ^ e := by
      rw [← Nat.pow_add, Nat.add_right_comm 23 1 e, ← he]
      exact Nat.lt_log2_self
    obtain ⟨k, rfl⟩ := hn.two_pow_dvd hlow
    rw [Nat.mul_comm (2 ^ e) k] at hlow hhigh ⊢
    have hk_ge := Nat.le_of_mul_le_mul_right hlow (Nat.two_pow_pos e)
    have hk_lt := Nat.lt_of_mul_lt_mul_right hhigh
    exact .inr ⟨e, k - 2 ^ 23, he_lt, by omega, by rw [Nat.add_sub_cancel' hk_ge]⟩

/-- A finite representable magnitude is encoded as a finite pattern that holds it, with its sign. -/
theorem f32Encode_holds (sign : Bool) {n : Nat} (hn : Representable n) (hlt : n < f32Overflow) :
    f32Units (f32Encode sign n) = n ∧ f32Sign (f32Encode sign n) = sign ∧ f32Expo (f32Encode sign n) ≠ 0xFF := by
  rcases hn.subnormal_or_normal hlt with hsub | ⟨e, frac, he, hf, rfl⟩
  · have he : 0 < 2 ^ 8 := by decide
    rw [f32Encode_of_subnormal sign hsub, f32Units_f32Pack sign he hsub, f32Sign_f32Pack sign he hsub,
      f32Expo_f32Pack sign he hsub]
    exact ⟨rfl, rfl, by decide⟩
  · have he' : e + 1 < 2 ^ 8 := by omega
    rw [f32Encode_of_normal sign he hf, f32Units_f32Pack sign he' hf, f32Sign_f32Pack sign he' hf,
      f32Expo_f32Pack sign he' hf]
    exact ⟨rfl, rfl, by omega⟩

/-- A finite pattern is the encoding of its sign and its magnitude. -/
theorem f32Encode_f32Units {v : Word} (hfin : f32Expo v ≠ 0xFF) : f32Encode (f32Sign v) (f32Units v) = v := by
  have he := f32Expo_lt v
  have hf := f32Frac_lt v
  have hfields := f32Pack_fields v
  rw [f32Units]
  split
  next hzero =>
    rw [f32Encode_of_subnormal _ hf, ← hzero, hfields]
  next hnonzero =>
    rw [f32Encode_of_normal _ (by omega) hf, Nat.sub_add_cancel (by omega), hfields]

/-- Settles O40: the fields of a pattern are the two shapes of a finite magnitude, subnormal or with a leading 1. -/
theorem patternsHoldTheirValues : Obligations.PatternsHoldTheirValues := by
  refine ⟨fun sign n hn hlt => f32Encode_holds sign hn hlt, fun v hv => f32Encode_f32Units hv, fun sign n h => ?_⟩
  rw [f32Encode_of_overflow sign h]
  cases sign <;> decide

/-! ### Calibration -/

/-- `scaledCount` fits its 32 bits because of the saturation (R9). -/
theorem scaledCount_toNat (n k ref : Nat) : (scaledCount n k ref).toNat = min (2 ^ 32 - 1) (n * k / ref) := by
  rw [scaledCount, BitVec.toNat_ofNat, Nat.mod_eq_of_lt (by omega)]

/-- Settles O26: both functions are a `scaledCount` of the parameters. -/
theorem calibrationFormula : Obligations.CalibrationFormula :=
  fun _ _ _ => ⟨scaledCount_toNat .., scaledCount_toNat ..⟩

end Sys2Proof.Machine
end

section
/-! PROOFS. The state family (`10_state.md`): what one step can do, said once, and what every step keeps. -/

namespace Sys2Proof.Machine

/-! ### What a host write does -/

/-- A register access names its offset and is 32 bits wide (`20_memory.md` R80). -/
theorem classifyAccess_eq_register {off : Int} {width k : Nat} (h : classifyAccess off width = .register k) :
    off = k ∧ width = 4 := by
  unfold classifyAccess at h
  split at h
  · cases h
  · split at h
    next hdef => cases h; omega
    next => cases h

/-- A defined host write is the register's write, the entry taken from the agenda (`20_memory.md` R87). -/
theorem step_register_write {s : State} {k : Nat} {w : Word} {rest : List Event} (hk : k < 16)
    (h : s.agenda = .host (.wr (4 * k : Nat) 4 w) :: rest) : step s = writeReg (4 * k) w (s.withAgenda rest) := by
  rw [step_cons h, perform, hostMove, hostWrite, classifyAccess_register k hk]

/-- Only CMD, CONFIG and ARG take a write (`20_memory.md` R87). -/
theorem writeReg_of_not_writable {off : Nat} (w : Word) (s : State) (h : writableOffset off = false) :
    writeReg off w s = .next s := by
  unfold writeReg
  split
  · exact absurd h (by decide)
  · exact absurd h (by decide)
  · exact absurd h (by decide)
  · rfl

/-- TYPE takes a write only while `INIT = 0` and `BUSY = 0` (`10_state.md` R43). -/
theorem writeConfig_cases (w : Word) (s : State) :
    (s.init = false ∧ s.busy = false ∧ writeConfig w s = { s with configType := w.extractLsb' 0 8 }) ∨
    ((s.init = true ∨ s.busy = true) ∧ writeConfig w s = s) := by
  by_cases hopen : s.init = false ∧ s.busy = false
  · exact .inl ⟨hopen.1, hopen.2, if_pos hopen⟩
  · have hlocked := (Decidable.not_and_iff_or_not.1 hopen).imp eq_true_of_ne_false eq_true_of_ne_false
    exact .inr ⟨hlocked, if_neg hopen⟩

/-! ### What an accepted command does -/

/-- The accepted commands by their effect in the step that accepts them (`40_init.md` R133, R136; `42_accessors.md`
R190, R195, R198 to R201). -/
inductive Accepted (s : State) : Instr → State → Prop
  | nop : Accepted s .nop s
  | beginRefused {i : Instr} (hi : i = .beginCmd ∨ i = .beginArg) (htype : s.configType ≠ 0x00#8) :
      Accepted s i (s.setErr .badConfig)
  | beginStarted {i : Instr} (hi : i = .beginCmd ∨ i = .beginArg) (htype : s.configType = 0x00#8) (settle : Half) :
      Accepted s i ({ s with settle := settle }.start (opcode i) .bHigh)
  | accessorRefused {i : Instr} (hi : opcode i = 0x3#4 ∨ opcode i = 0x4#4) (hinit : s.init = false) :
      Accepted s i (notInitResult s)
  | accessorStarted {i : Instr} (hi : opcode i = 0x3#4 ∨ opcode i = 0x4#4) (hinit : s.init = true)
      (force fahr : Bool) : Accepted s i ({ s with force := force, fahr := fahr }.start (opcode i) .rCheck)
  | converted : Accepted s .convertCToF ((s.setResult (ctof (celsiusArg s))).setErr .none)
  | reserved {i : Instr} (hi : i ∈ reservedCommands) : Accepted s i (s.setErr .badCmd)

theorem initSeq_accepted {s : State} {i : Instr} (hi : i = .beginCmd ∨ i = .beginArg) (settle : Half) :
    Accepted s i (initSeq (opcode i) settle s) := by
  unfold initSeq
  split
  next htype => exact .beginRefused hi htype
  next htype => exact .beginStarted hi (Decidable.not_not.1 htype) settle

theorem exec_accepted {i : Instr} {s t : State} (h : exec i s = .next t) : Accepted s i t := by
  cases i with
  | nop => cases h; exact .nop
  | beginCmd => cases h; exact initSeq_accepted (.inl rfl) _
  | beginArg => cases h; exact initSeq_accepted (.inr rfl) _
  | readHum force =>
    rw [exec, execReadHum] at h
    split at h
    next hinit => cases h; exact .accessorStarted (.inl rfl) hinit force s.fahr
    next hinit => cases h; exact .accessorRefused (.inl rfl) (eq_false_of_ne_true hinit)
  | readTemp force fahr =>
    rw [exec, execReadTemp] at h
    split at h
    next hinit => cases h; exact .accessorStarted (.inr rfl) hinit force fahr
    next hinit => cases h; exact .accessorRefused (.inr rfl) (eq_false_of_ne_true hinit)
  | convertCToF => cases h; exact .converted
  | _ => cases h; exact .reserved (by decide)

/-- A command word's opcode field is its command's opcode (`30_encoding.md` R110). -/
theorem opcode_decodeWord (w : Word) : opcode (decodeWord w) = opField w := by
  unfold decodeWord
  generalize opField w = c, forceField w = f, fahrField w = g
  revert c f g
  decide

/-! ### What a step does -/

/-- The moves of a step by who makes them: the sequencer, a reset, or the host, whose reads, polls and ignored writes
change the agenda and the bus data alone. -/
inductive Moved (s : State) : State → Prop
  | sequencer (turn : sequencerMoves s) : Moved s (sequence (s.withAgenda s.agenda.tail))
  | reset (head : s.agenda.head? = some .rst) : Moved s (resetBlock (s.withAgenda s.agenda.tail))
  | unnoticed (agenda : List Event) (rdata : Word) : Moved s { s with agenda := agenda, rdata := rdata }
  | config {w : Word} (head : s.agenda.head? = some (.host (.wr 0x08 4 w))) :
      Moved s (writeConfig w (s.withAgenda s.agenda.tail))
  | arg {w : Word} (head : s.agenda.head? = some (.host (.wr 0x0C 4 w))) :
      Moved s (writeArg w (s.withAgenda s.agenda.tail))
  | command {w : Word} {t : State} (head : s.agenda.head? = some (cmdWrite w)) (hbusy : s.busy = false)
      (accepted : Accepted ((s.withAgenda s.agenda.tail).latchCommand w) (decodeWord w) t) : Moved s t

theorem hostRead_moved {s t : State} {rest : List Event} {off : Int} {width : Nat}
    (h : hostRead off width (s.withAgenda rest) = .next t) : Moved s t := by
  unfold hostRead at h
  split at h
  next => cases h; exact .unnoticed rest _
  next => cases h
  next => cases h

theorem hostPoll_moved (s : State) (rest : List Event) : Moved s (hostPoll (s.withAgenda rest)) := by
  unfold hostPoll
  split
  · exact .unnoticed _ _
  · exact .unnoticed rest _

theorem acceptCommand_moved {s t : State} {w : Word} (head : s.agenda.head? = some (cmdWrite w))
    (h : acceptCommand w (s.withAgenda s.agenda.tail) = .next t) : Moved s t := by
  unfold acceptCommand at h
  split at h
  next => cases h; exact .unnoticed _ s.rdata
  next hbusy => exact .command head (eq_false_of_ne_true hbusy) (exec_accepted h)

theorem hostWrite_moved {s t : State} {off : Int} {width : Nat} {w : Word}
    (head : s.agenda.head? = some (.host (.wr off width w)))
    (h : hostWrite off width w (s.withAgenda s.agenda.tail) = .next t) : Moved s t := by
  unfold hostWrite at h
  split at h
  next k hk =>
    obtain ⟨rfl, rfl⟩ := classifyAccess_eq_register hk
    unfold writeReg at h
    split at h
    · exact acceptCommand_moved head h
    · cases h; exact .config head
    · cases h; exact .arg head
    · cases h; exact .unnoticed _ s.rdata
  next => cases h
  next => cases h

theorem step_moved {s t : State} (h : step s = .next t) : Moved s t := by
  by_cases turn : sequencerMoves s
  · rw [step_of_sequencerMoves turn] at h; cases h; exact .sequencer turn
  · obtain ⟨e, rest, ha⟩ := List.exists_cons_of_ne_nil fun hnil => turn (.inl hnil)
    have head : s.agenda.head? = some e := by rw [ha]; rfl
    have tail : rest = s.agenda.tail := by rw [ha]; rfl
    rw [step_cons ha, tail] at h
    cases e with
    | host op =>
      cases op with
      | rd off width => exact hostRead_moved h
      | wr off width w => exact hostWrite_moved head h
      | waitIdle => cases h; exact hostPoll_moved s _
    | seqMove => exact absurd (.inr head) turn
    | rst => cases h; exact .reset head

/-! ### The invariant: the states it does not tell apart, and the idle ones -/

/-- ARG, the agenda and the bus data are no part of the invariant. -/
theorem Inv.of_host_data {s : State} (h : Inv s) (arg : Word) (agenda : List Event) (rdata : Word) :
    Inv { s with arg := arg, agenda := agenda, rdata := rdata } := { h with }

/-- What the invariant asks of an idle block. -/
theorem Inv.of_idle {s : State} (hseq : s.seq = .idle) (hbusy : s.busy = false) (hguard : s.guardActive = false)
    (hpin : s.pinMode = .inPullup) (htype : s.init = true → s.configType = 0x00#8)
    (hvalid : s.valid = true → s.init = true ∧ s.cache.checksumOk = true) : Inv s where
  busy_iff_running := by simp [hseq, hbusy]
  guard_while_sampling := by rw [hseq, hguard]; rfl
  pin_of_phase := by rw [hseq, hpin]; rfl
  begin_op := by simp [hseq, beginRuns]
  accessor_op := by simp [hseq, accessorRuns]
  accessor_init := by simp [hseq, accessorRuns]
  begin_type := by simp [hseq, beginRuns]
  init_type := htype
  valid_init hv := (hvalid hv).1
  valid_checksum hv := (hvalid hv).2
  commit_checksum := by simp [hseq]
  count_bounded := by simp [countBounded, hseq]
  bit_indexed := by simp [bitIndexed, hseq]

theorem Inv.idle_of_not_busy {s : State} (h : Inv s) (hbusy : s.busy = false) : s.seq = .idle :=
  Decidable.byContradiction fun hrun => Bool.eq_false_iff.1 hbusy (h.busy_iff_running.2 hrun)

/-- What an idle block's guard and line port are (`43_guard.md` R233, `41_refresh.md` R167). -/
theorem Inv.idle_ports {s : State} (h : Inv s) (hs : s.seq = .idle) : s.guardActive = false ∧ s.pinMode = .inPullup :=
  ⟨h.guard_while_sampling.trans (by rw [hs]; rfl), h.pin_of_phase.trans (by rw [hs]; rfl)⟩

/-- The registers of the invariant that only the last step of a command, the commit and the host write. -/
def commandView (s : State) : Bool × Bool × Byte × Bool × Sample := (s.busy, s.init, s.configType, s.valid, s.cache)

/-- An idle block stays within the invariant while those registers, the guard and the line port stay. -/
theorem Inv.keep_idle {s t : State} (h : Inv s) (hs : s.seq = .idle) (ht : t.seq = .idle)
    (hview : commandView t = commandView s) (hguard : t.guardActive = s.guardActive)
    (hpin : t.pinMode = s.pinMode) : Inv t := by
  simp only [commandView, Prod.mk.injEq] at hview
  obtain ⟨ebusy, einit, etype, evalid, ecache⟩ := hview
  have hbusy : s.busy = false := by simpa [hs] using h.busy_iff_running
  obtain ⟨hguard_off, hpin_up⟩ := h.idle_ports hs
  refine .of_idle ht (ebusy.trans hbusy) (hguard.trans hguard_off) (hpin.trans hpin_up) ?_ ?_
  · rw [einit, etype]; exact h.init_type
  · rw [evalid, einit, ecache]; exact fun hv => ⟨h.valid_init hv, h.valid_checksum hv⟩

/-- Settles O44: the reset state is idle, with INIT and VALID 0. -/
theorem resetMeetsTheInvariant : Obligations.ResetMeetsTheInvariant :=
  .of_idle rfl rfl rfl rfl nofun nofun

/-- A reset puts an idle block with INIT and VALID 0 in the place of any state. -/
theorem inv_resetBlock (s : State) : Inv (resetBlock s) := .of_idle rfl rfl rfl rfl nofun nofun

/-- TYPE changes only while `INIT = 0` and no command runs (`10_state.md` R43). -/
theorem inv_writeConfig {s : State} (h : Inv s) (w : Word) : Inv (writeConfig w s) := by
  rcases writeConfig_cases w s with ⟨hinit, hbusy, e⟩ | ⟨-, e⟩ <;> rw [e]
  · have hidle := h.idle_of_not_busy hbusy
    obtain ⟨hguard, hpin⟩ := h.idle_ports hidle
    have hinit' : s.init ≠ true := Bool.eq_false_iff.1 hinit
    exact .of_idle hidle hbusy hguard hpin (absurd · hinit') fun hv => absurd (h.valid_init hv) hinit'
  · exact h

/-! ### The invariant along a running command -/

/-- What the invariant asks of the state at a phase, beside the registers of `commandView` and the latched opcode. -/
structure AtPhase (p : Phase) (s : State) : Prop where
  seq_eq : s.seq = .run p
  guard_eq : s.guardActive = guarded (.run p)
  pin_eq : s.pinMode = pinModeAt (.run p)
  commit_ok : p = .rCommit → s.stage.checksumOk = true
  count_ok : countBounded s
  bit_ok : bitIndexed s

theorem Inv.atPhase {s : State} {p : Phase} (h : Inv s) (hs : s.seq = .run p) : AtPhase p s where
  seq_eq := hs
  guard_eq := hs ▸ h.guard_while_sampling
  pin_eq := hs ▸ h.pin_of_phase
  commit_ok hp := h.commit_checksum (hp ▸ hs)
  count_ok := h.count_bounded
  bit_ok := h.bit_indexed

/-- A command goes on to a phase of its own: the invariant is what the new phase asks. -/
theorem Inv.advance {s t : State} {p : Phase} (h : Inv s) (hs : s.seq = .run p) (q : Phase)
    (hclass : q.ofBegin = p.ofBegin) (hop : t.op = s.op) (hview : commandView t = commandView s) (ht : AtPhase q t) :
    Inv t := by
  simp only [commandView, Prod.mk.injEq] at hview
  obtain ⟨ebusy, einit, etype, evalid, ecache⟩ := hview
  have hbegin : beginRuns t.seq = beginRuns s.seq := by rw [ht.seq_eq, hs]; exact hclass
  have haccessor : accessorRuns t.seq = accessorRuns s.seq := by
    rw [ht.seq_eq, hs]
    exact congrArg (!·) hclass
  exact {
    busy_iff_running := by rw [ebusy, h.busy_iff_running, hs, ht.seq_eq]; simp
    guard_while_sampling := by rw [ht.guard_eq, ht.seq_eq]
    pin_of_phase := by rw [ht.pin_eq, ht.seq_eq]
    begin_op := by rw [hbegin, hop]; exact h.begin_op
    accessor_op := by rw [haccessor, hop]; exact h.accessor_op
    accessor_init := by rw [haccessor, einit]; exact h.accessor_init
    begin_type := by rw [hbegin, etype]; exact h.begin_type
    init_type := by rw [einit, etype]; exact h.init_type
    valid_init := by rw [evalid, einit]; exact h.valid_init
    valid_checksum := by rw [evalid, ecache]; exact h.valid_checksum
    commit_checksum := by rw [ht.seq_eq]; exact fun hq => ht.commit_ok (Seq.run.inj hq)
    count_bounded := ht.count_ok
    bit_indexed := ht.bit_ok }

/-- The decode step leaves an idle block (`42_accessors.md` R190, R195). -/
theorem Inv.finishAccessor {s : State} (h : Inv s) (hs : s.seq = .run .rDecode) (result : Word) (nodata : Bool) :
    Inv (finishAccessor result nodata s) :=
  have hp := h.atPhase hs
  .of_idle rfl rfl hp.guard_eq hp.pin_eq h.init_type fun hv => ⟨h.valid_init hv, h.valid_checksum hv⟩

/-- The ReadCache holds the sample it was written with (`10_state.md` R47, R48). -/
theorem cache_of_raw {s : State} {x : Sample} (h0 : s.raw0 = x.raw0) (h1 : s.raw1 = x.b4) : s.cache = x := by
  obtain ⟨e0, e1, e2, e3⟩ := wordByte_wordOfBytes x.b0 x.b1 x.b2 x.b3
  rw [State.cache, h0, h1, Sample.raw0, e0, e1, e2, e3]

/-- A counted sample keeps the count within the bound it was below (`41_refresh.md` R161). -/
theorem toNat_succ_le_of_not_le {bound cnt : Word} (h : ¬ bound ≤ cnt) : (cnt + 1#32).toNat ≤ bound.toNat := by
  bv_omega

theorem inv_bRefStep {s : State} (h : Inv s) (hs : s.seq = .run .bRef) : Inv (bRefStep s) := by
  obtain ⟨-, hguard, hpin, -, hcount, -⟩ := h.atPhase hs
  rw [countBounded, hs] at hcount
  rcases bRefStep_cases s with ⟨-, e⟩ | ⟨-, -, e⟩ | ⟨-, hbelow, e⟩ <;> rw [e]
  · exact h.advance hs (.bEnd (.value s.cnt)) rfl rfl rfl ⟨rfl, hguard, hpin, nofun, hcount, ⟨⟩⟩
  · exact h.advance hs (.bEnd .timeout) rfl rfl rfl ⟨rfl, hguard, hpin, nofun, ⟨⟩, ⟨⟩⟩
  · refine h.advance hs .bRef rfl rfl rfl ⟨hs, hguard, hpin, nofun, ?_, ?_⟩
    · simpa [countBounded, hs] using toNat_succ_le_of_not_le hbelow
    · simp [bitIndexed, hs]

theorem inv_pulseDone {s : State} {j : Fin 82} (h : Inv s) (hs : s.seq = .run (.rMeas j)) (n : Word) :
    Inv (pulseDone j n s) := by
  obtain ⟨-, hguard, hpin, -, -, -⟩ := h.atPhase hs
  have hguard' : (pulseDone j n s).guardActive = true := by rw [pulseDone_guardActive, hguard]; rfl
  have hpin' : (pulseDone j n s).pinMode = .inPullup := by rw [pulseDone_pinMode, hpin]; rfl
  have hview : commandView (pulseDone j n s) = commandView s := by simp [commandView, State.cache]
  rcases pulseDone_seq s j n with ⟨hj, hseq, hcnt, hbitk⟩ | ⟨-, hseq⟩
  · refine h.advance hs (.rMeas ⟨j.val + 1, hj⟩) rfl (by simp) hview ⟨hseq, hguard', hpin', nofun, ?_, ?_⟩
    · simp [countBounded, hseq, hcnt]
    · simp only [bitIndexed, hseq]
      intro h2
      rw [hbitk h2]
      exact Nat.mod_eq_of_lt (by omega)
  · exact h.advance hs .rGuardExit rfl (by simp) hview
      ⟨hseq, hguard', hpin', nofun, by simp [countBounded, hseq], by simp [bitIndexed, hseq]⟩

theorem Inv.lineNext {s : State} (h : Inv s) : Inv s.lineNext := { h with }

theorem inv_rMeasStep {s : State} {j : Fin 82} (h : Inv s) (hs : s.seq = .run (.rMeas j)) : Inv (rMeasStep j s) := by
  obtain ⟨-, hguard, hpin, -, -, hbit⟩ := h.atPhase hs
  rcases rMeasStep_cases s j with ⟨-, e⟩ | ⟨-, -, e⟩ | ⟨-, hbelow, e⟩ <;> rw [e]
  · exact inv_pulseDone h.lineNext hs s.cnt
  · exact h.advance hs (.rAbort .timeout) rfl rfl rfl ⟨rfl, hguard, hpin, nofun, ⟨⟩, ⟨⟩⟩
  · refine h.advance hs (.rMeas j) rfl rfl rfl ⟨hs, hguard, hpin, nofun, ?_, hbit⟩
    simpa [countBounded, hs] using toNat_succ_le_of_not_le hbelow

/-- The commit writes a sample that satisfies the checksum, of a block after BEGIN (`41_refresh.md` R166). -/
theorem inv_rCommitStep {s : State} (h : Inv s) (hs : s.seq = .run .rCommit) : Inv (rCommitStep s) :=
  have hp := h.atPhase hs
  have hnext : Inv (s.clockNext.goto .rDecode) :=
    h.advance hs .rDecode rfl rfl rfl ⟨rfl, hp.guard_eq, hp.pin_eq, nofun, ⟨⟩, ⟨⟩⟩
  have hcache : (rCommitStep s).cache = s.stage := cache_of_raw rfl rfl
  { hnext with
    valid_init := fun _ => h.accessor_init (by rw [hs]; rfl)
    valid_checksum := fun _ => hcache ▸ hp.commit_ok rfl }

theorem inv_bEndStep {s : State} {r : Count} (h : Inv s) (hs : s.seq = .run (.bEnd r)) : Inv (bEndStep r s) := by
  obtain ⟨b, t, d, e⟩ := bEndStep_eq s r
  rw [e]
  exact .of_idle rfl rfl rfl (h.atPhase hs).pin_eq (fun _ => h.begin_type (by rw [hs]; rfl)) nofun

/-- The phases of a command and the one each goes on to (`10_state.md` R35, `40_init.md` R136, `41_refresh.md` R151). -/
theorem inv_phaseStep {s : State} {p : Phase} (h : Inv s) (hs : s.seq = .run p) : Inv (phaseStep p s) := by
  have advance (q : Phase) {t : State} := h.advance (t := t) hs q
  obtain ⟨-, hguard, hpin, -, -, -⟩ := h.atPhase hs
  cases p with
  | bHigh => exact advance .bHighWait rfl rfl rfl ⟨rfl, hguard, rfl, nofun, ⟨⟩, ⟨⟩⟩
  | bHighWait => exact advance .bWake rfl rfl rfl ⟨rfl, hguard, hpin, nofun, ⟨⟩, ⟨⟩⟩
  | bWake => exact advance .bWakeWait rfl rfl rfl ⟨rfl, hguard, rfl, nofun, ⟨⟩, ⟨⟩⟩
  | bWakeWait => exact advance .bSettle rfl rfl rfl ⟨rfl, hguard, hpin, nofun, ⟨⟩, ⟨⟩⟩
  | bSettle => exact advance .bSettleWait rfl rfl rfl ⟨rfl, hguard, rfl, nofun, ⟨⟩, ⟨⟩⟩
  | bSettleWait => exact advance .bRefEnter rfl rfl rfl ⟨rfl, hguard, hpin, nofun, ⟨⟩, ⟨⟩⟩
  | bRefEnter => exact advance .bRef rfl rfl rfl ⟨rfl, rfl, hpin, nofun, Nat.zero_le _, ⟨⟩⟩
  | bRef => exact inv_bRefStep h hs
  | bEnd r => exact inv_bEndStep h hs
  | rCheck =>
    simp only [phaseStep, rCheckStep]
    split
    · exact advance .rDecode rfl rfl rfl ⟨rfl, hguard, hpin, nofun, ⟨⟩, ⟨⟩⟩
    · exact advance .rWake rfl rfl rfl ⟨rfl, hguard, hpin, nofun, ⟨⟩, ⟨⟩⟩
  | rWake => exact advance .rWakeWait rfl rfl rfl ⟨rfl, hguard, rfl, nofun, ⟨⟩, ⟨⟩⟩
  | rWakeWait => exact advance .rSettle rfl rfl rfl ⟨rfl, hguard, hpin, nofun, ⟨⟩, ⟨⟩⟩
  | rSettle => exact advance .rSettleWait rfl rfl rfl ⟨rfl, hguard, rfl, nofun, ⟨⟩, ⟨⟩⟩
  | rSettleWait => exact advance .rMeasEnter rfl rfl rfl ⟨rfl, hguard, hpin, nofun, ⟨⟩, ⟨⟩⟩
  | rMeasEnter => exact advance (.rMeas 0) rfl rfl rfl ⟨rfl, rfl, hpin, nofun, Nat.zero_le _, nofun⟩
  | rMeas j => exact inv_rMeasStep h hs
  | rGuardExit => exact advance .rValidate rfl rfl rfl ⟨rfl, rfl, hpin, nofun, ⟨⟩, ⟨⟩⟩
  | rValidate =>
    simp only [phaseStep, rValidateStep]
    split
    next hsum => exact advance .rCommit rfl rfl rfl ⟨rfl, hguard, hpin, fun _ => hsum, ⟨⟩, ⟨⟩⟩
    next => exact advance (.rAbort .checksumMismatch) rfl rfl rfl ⟨rfl, hguard, hpin, nofun, ⟨⟩, ⟨⟩⟩
  | rCommit => exact inv_rCommitStep h hs
  | rAbort cause => exact advance .rDecode rfl rfl rfl ⟨rfl, rfl, hpin, nofun, ⟨⟩, ⟨⟩⟩
  | rDecode =>
    simp only [phaseStep, rDecodeStep]
    split <;> exact h.finishAccessor hs _ _

theorem inv_sequence {s : State} (h : Inv s) : Inv (sequence s) := by
  cases hs : s.seq with
  | idle => rwa [sequence_idle hs]
  | run p => rw [sequence_run hs]; exact inv_phaseStep h hs

/-! ### The invariant at the acceptance of a command -/

theorem inv_accepted {s t : State} {i : Instr} (h : Inv s) (hs : s.seq = .idle) (ha : Accepted s i t) : Inv t := by
  obtain ⟨hguard, hpin⟩ := h.idle_ports hs
  cases ha with
  | nop => exact h
  | beginRefused => exact h.keep_idle hs hs rfl rfl rfl
  | beginStarted hi htype =>
    exact { h with
      busy_iff_running := iff_of_true rfl nofun
      guard_while_sampling := hguard
      pin_of_phase := hpin
      begin_op := fun _ => by rcases hi with rfl | rfl <;> simp [opcode]
      accessor_op := nofun
      accessor_init := nofun
      begin_type := fun _ => htype
      commit_checksum := nofun
      count_bounded := ⟨⟩
      bit_indexed := ⟨⟩ }
  | accessorRefused => exact h.keep_idle hs hs rfl rfl rfl
  | accessorStarted hi hinit =>
    exact { h with
      busy_iff_running := iff_of_true rfl nofun
      guard_while_sampling := hguard
      pin_of_phase := hpin
      begin_op := nofun
      accessor_op := fun _ => hi
      accessor_init := fun _ => hinit
      begin_type := nofun
      commit_checksum := nofun
      count_bounded := ⟨⟩
      bit_indexed := ⟨⟩ }
  | converted => exact h.keep_idle hs hs rfl rfl rfl
  | reserved => exact h.keep_idle hs hs rfl rfl rfl

/-- Settles O45, by who makes the move: the sequencer, a reset, or the host. -/
theorem everyStepKeepsTheInvariant : Obligations.EveryStepKeepsTheInvariant := by
  intro s t h hstep
  have hrest : Inv (s.withAgenda s.agenda.tail) := h.of_host_data _ _ _
  cases step_moved hstep with
  | sequencer => exact inv_sequence hrest
  | reset => exact inv_resetBlock _
  | unnoticed agenda rdata => exact h.of_host_data _ agenda rdata
  | config => exact inv_writeConfig hrest _
  | arg => exact h.of_host_data _ _ _
  | @command w _ _ hbusy accepted =>
    have hidle := h.idle_of_not_busy hbusy
    have hlatched : Inv ((s.withAgenda s.agenda.tail).latchCommand w) := hrest.keep_idle hidle hidle rfl rfl rfl
    exact inv_accepted hlatched hidle accepted

/-! ### The writers of the ReadCache -/

/-- The ReadCache as the host reads it, with VALID (`10_state.md` R45). -/
def readCache (s : State) : Word × Byte × Word × Bool := (s.raw0, s.raw1, s.ts, s.valid)

/-- Only the commit and the end of BEGIN write the ReadCache (`10_state.md` R45). -/
theorem sequence_readCache (s : State) :
    readCache (sequence s) = readCache s ∨ s.seq = .run .rCommit ∨ ∃ r, s.seq = .run (.bEnd r) := by
  cases hs : s.seq with
  | idle => exact .inl (by rw [sequence_idle hs])
  | run p =>
    rw [sequence_run hs]
    cases p with
    | bRef => left; rcases bRefStep_cases s with ⟨_, e⟩ | ⟨_, _, e⟩ | ⟨_, _, e⟩ <;> simp [phaseStep, e, readCache]
    | bEnd r => exact .inr (.inr ⟨r, rfl⟩)
    | rMeas j =>
      left
      rcases rMeasStep_cases s j with ⟨_, e⟩ | ⟨_, _, e⟩ | ⟨_, _, e⟩ <;> simp [phaseStep, e, readCache]
    | rCheck => left; simp only [phaseStep, rCheckStep]; split <;> rfl
    | rValidate => left; simp only [phaseStep, rValidateStep]; split <;> rfl
    | rCommit => exact .inr (.inl rfl)
    | rDecode => left; simp only [phaseStep, rDecodeStep]; split <;> rfl
    | _ => exact .inl rfl

theorem Accepted.readCache_eq {s t : State} {i : Instr} (h : Accepted s i t) : readCache t = readCache s := by
  cases h <;> rfl

theorem readCache_writeConfig (w : Word) (s : State) : readCache (writeConfig w s) = readCache s := by
  rcases writeConfig_cases w s with ⟨-, -, e⟩ | ⟨-, e⟩ <;> simp [e, readCache]

/-- A step keeps the ReadCache unless it is the commit, the end of BEGIN or a reset. -/
theorem Moved.readCache_cases {s t : State} (h : Moved s t) :
    readCache t = readCache s ∨ (sequencerMoves s ∧ s.seq = .run .rCommit) ∨
    (sequencerMoves s ∧ ∃ r, s.seq = .run (.bEnd r)) ∨ s.agenda.head? = some .rst := by
  cases h with
  | sequencer turn =>
    rcases sequence_readCache (s.withAgenda s.agenda.tail) with hkept | hcommit | hend
    · exact .inl hkept
    · exact .inr (.inl ⟨turn, hcommit⟩)
    · exact .inr (.inr (.inl ⟨turn, hend⟩))
  | reset head => exact .inr (.inr (.inr head))
  | unnoticed => exact .inl rfl
  | config => exact .inl (readCache_writeConfig _ _)
  | arg => exact .inl rfl
  | command _ _ accepted => exact .inl accepted.readCache_eq

/-- The commit sets VALID (`41_refresh.md` R166). -/
theorem valid_of_commit {s t : State} (turn : sequencerMoves s) (hs : s.seq = .run .rCommit)
    (h : step s = .next t) : t.valid = true := by
  rw [step_of_phase turn hs] at h
  cases h
  rfl

/-- Settles O49: every other step keeps the ReadCache, and the commit leaves VALID 1. -/
theorem onlyCommitAndBeginWriteTheCache : Obligations.OnlyCommitAndBeginWriteTheCache := by
  intro s t hstep
  rcases (step_moved hstep).readCache_cases with hkept | ⟨turn, hcommit⟩ | ⟨turn, hend⟩ | hrst
  · simp only [readCache, Prod.mk.injEq] at hkept
    obtain ⟨h0, h1, hts, hvalid⟩ := hkept
    exact ⟨by simp [h0, h1, hts, hvalid], by simp +contextual [hvalid]⟩
  · exact ⟨fun _ => .inl ⟨turn, .inl hcommit⟩, fun _ hv => by simp [valid_of_commit turn hcommit hstep] at hv⟩
  · exact ⟨fun _ => .inl ⟨turn, .inr hend⟩, fun _ _ => .inl ⟨turn, hend⟩⟩
  · exact ⟨fun _ => .inr hrst, fun _ _ => .inr hrst⟩

/-! ### The samples of the line -/

/-- Only a measurement samples the line, and one sample in a micro-operation (`41_refresh.md` R157, R160). -/
theorem sequence_lineTaken (s : State) :
    (sequence s).lineTaken = s.lineTaken ∨ (sequence s).lineTaken = s.lineTaken + 1 ∧
      (s.seq = .run .bRef ∨ ∃ j, s.seq = .run (.rMeas j)) := by
  cases hs : s.seq with
  | idle => exact .inl (by rw [sequence_idle hs])
  | run p =>
    rw [sequence_run hs]
    cases p with
    | bRef =>
      refine .inr ⟨?_, .inl rfl⟩
      rcases bRefStep_cases s with ⟨_, e⟩ | ⟨_, _, e⟩ | ⟨_, _, e⟩ <;> simp [phaseStep, e]
    | bEnd r => obtain ⟨_, _, _, e⟩ := bEndStep_eq s r; simp [phaseStep, e]
    | rMeas j =>
      refine .inr ⟨?_, .inr ⟨j, rfl⟩⟩
      rcases rMeasStep_cases s j with ⟨_, e⟩ | ⟨_, _, e⟩ | ⟨_, _, e⟩ <;> simp [phaseStep, e]
    | rCheck => left; simp only [phaseStep, rCheckStep]; split <;> rfl
    | rValidate => left; simp only [phaseStep, rValidateStep]; split <;> rfl
    | rDecode => left; simp only [phaseStep, rDecodeStep]; split <;> rfl
    | _ => exact .inl rfl

theorem Accepted.lineTaken_eq {s t : State} {i : Instr} (h : Accepted s i t) : t.lineTaken = s.lineTaken := by
  cases h <;> rfl

/-- A measurement samples a line that is released, with the guard active. -/
theorem Inv.released_and_guarded {s : State} (h : Inv s) (hs : s.seq = .run .bRef ∨ ∃ j, s.seq = .run (.rMeas j)) :
    s.pinMode = .inPullup ∧ s.pinDir = false ∧ s.guardActive = true := by
  have hpin : s.pinMode = .inPullup := by rw [h.pin_of_phase]; rcases hs with hs | ⟨j, hs⟩ <;> rw [hs] <;> rfl
  have hguard : s.guardActive = true := by rw [h.guard_while_sampling]; rcases hs with hs | ⟨j, hs⟩ <;> rw [hs] <;> rfl
  exact ⟨hpin, by rw [State.pinDir, hpin], hguard⟩

/-- Settles O51: the step is the sequencer's, at a measurement. -/
theorem samplesOnlyWhileReleasedAndGuarded : Obligations.SamplesOnlyWhileReleasedAndGuarded := by
  intro s t h hstep hne
  cases step_moved hstep with
  | sequencer =>
    rcases sequence_lineTaken (s.withAgenda s.agenda.tail) with hkept | ⟨hone, hmeas⟩
    · exact absurd hkept hne
    · exact ⟨hone, h.released_and_guarded hmeas⟩
  | reset => exact absurd rfl hne
  | unnoticed => exact absurd rfl hne
  | config => exact absurd (by unfold writeConfig; split <;> rfl) hne
  | arg => exact absurd rfl hne
  | command _ _ accepted => exact absurd accepted.lineTaken_eq hne

/-! ### The writers of the other registers -/

section
variable {s t : State} {i : Instr} (h : Accepted s i t)
include h

/-- What no command's acceptance writes. -/
theorem Accepted.keeps_registers : t.budget = s.budget ∧ t.bitthr = s.bitthr ∧ t.caldef = s.caldef ∧ t.arg = s.arg ∧
    t.configType = s.configType ∧ t.init = s.init ∧ t.outcome = s.outcome ∧ t.guardActive = s.guardActive ∧
    t.inst = s.inst := by
  cases h <;> exact ⟨rfl, rfl, rfl, rfl, rfl, rfl, rfl, rfl, rfl⟩

/-- SETTLE is written by BEGIN and BEGIN_ARG (`10_state.md` R52). -/
theorem Accepted.settle_writer (hne : t.settle ≠ s.settle) : i = .beginCmd ∨ i = .beginArg := by
  cases h with
  | beginStarted hi => exact hi
  | _ => exact absurd rfl hne

/-- RESULT is written by an accessor refused before BEGIN and by the conversion (`10_state.md` R46). -/
theorem Accepted.result_writer (hne : t.result ≠ s.result) :
    (opcode i).toNat = 3 ∨ (opcode i).toNat = 4 ∨ (opcode i).toNat = 5 := by
  cases h with
  | accessorRefused hi => rcases hi with hi | hi <;> simp [hi]
  | converted => exact .inr (.inr rfl)
  | _ => exact absurd rfl hne

/-- NODATA is written by an accessor refused before BEGIN (`42_accessors.md` R198). -/
theorem Accepted.nodata_writer (hne : t.nodata ≠ s.nodata) :
    s.init = false ∧ ((opcode i).toNat = 3 ∨ (opcode i).toNat = 4) := by
  cases h with
  | accessorRefused hi hinit => exact ⟨hinit, hi.imp (congrArg BitVec.toNat) (congrArg BitVec.toNat)⟩
  | _ => exact absurd rfl hne

/-- ERR is written by commands other than NOP (`60_exceptions.md` R244, `42_accessors.md` R200). -/
theorem Accepted.err_writer (hne : t.err ≠ s.err) : (opcode i).toNat ≠ 0 := by
  cases h with
  | beginRefused hi => rcases hi with rfl | rfl <;> decide
  | accessorRefused hi => rcases hi with hi | hi <;> simp [hi]
  | converted => decide
  | reserved hi => revert i; decide
  | _ => exact absurd rfl hne

/-- BUSY is written by a command that starts (`10_state.md` R34). -/
theorem Accepted.busy_writer (hne : t.busy ≠ s.busy) : 1 ≤ (opcode i).toNat ∧ (opcode i).toNat ≤ 4 := by
  cases h with
  | beginStarted hi => rcases hi with rfl | rfl <;> decide
  | accessorStarted hi => rcases hi with hi | hi <;> simp [hi]
  | _ => exact absurd rfl hne

end

/-- Settles O50, by who makes the move: a read, a poll or an ignored write changes no register. -/
theorem eachRegisterHasItsWriters : Obligations.EachRegisterHasItsWriters := by
  intro s t hstep hrst
  cases step_moved hstep with
  | sequencer turn =>
    obtain ⟨htype, harg, hsettle, -, -, -, hinst, -, -⟩ := sequence_keeps (s.withAgenda s.agenda.tail)
    obtain ⟨hcal, hresult, hend, houtcome, hguard⟩ := sequence_writers (s.withAgenda s.agenda.tail)
    exact ⟨fun h => ⟨turn, hcal (h.imp_right (·.imp_right .inl))⟩, (absurd harg ·), (absurd htype ·),
      (absurd hsettle ·), fun h => .inl ⟨turn, hresult h⟩, fun h => ⟨turn, hcal (.inr (.inr (.inr h)))⟩,
      fun h => .inl ⟨turn, hend (.inl h)⟩, fun h => ⟨turn, houtcome (.inl h)⟩,
      fun h => .inl ⟨turn, houtcome (.inr h)⟩, fun h => .inl ⟨turn, hend (.inr h)⟩, fun h => ⟨turn, hguard h⟩, hinst⟩
  | reset head => exact absurd head hrst
  | unnoticed => simp
  | config head =>
    rcases writeConfig_cases _ (s.withAgenda s.agenda.tail) with ⟨hinit, hbusy, e⟩ | ⟨-, e⟩ <;> rw [e]
    · simpa [head] using fun _ => ⟨hinit, hbusy⟩
    · simp
  | arg head => simp [head]
  | @command w _ head hbusy accepted =>
    obtain ⟨hbudget, hbitthr, hcaldef, harg, htype, hinit, houtcome, hguard, hinst⟩ := accepted.keeps_registers
    have hop := opcode_decodeWord w
    exact ⟨fun h => by simp [hbudget, hbitthr, hcaldef] at h, (absurd harg ·), (absurd htype ·),
      fun h => ⟨w, head, hbusy, accepted.settle_writer h⟩,
      fun h => .inr ⟨w, head, hbusy, hop ▸ accepted.result_writer h⟩, (absurd hinit ·),
      fun h => .inr ⟨w, head, hbusy, hop ▸ accepted.nodata_writer h⟩, (absurd houtcome ·),
      fun h => .inr ⟨w, head, hbusy, hop ▸ accepted.err_writer h⟩,
      fun h => .inr ⟨w, head, hbusy, hop ▸ accepted.busy_writer h⟩, (absurd hguard ·), hinst⟩

/-! ### The register window -/

/-- Settles O12: RAW0 is the little-endian word of four bytes, and RAW1 reads the fifth with zeros above it. -/
theorem cacheBytesAtTheirPlaces : Obligations.CacheBytesAtTheirPlaces := by
  intro s x h0 h1
  obtain ⟨e0, e1, e2, e3⟩ : wordByte s.raw0 0 = x.b0 ∧ wordByte s.raw0 1 = x.b1 ∧ wordByte s.raw0 2 = x.b2 ∧
      wordByte s.raw0 3 = x.b3 := h0 ▸ wordByte_wordOfBytes x.b0 x.b1 x.b2 x.b3
  have e4 : readReg s 0x18 = x.b4.setWidth 32 := congrArg (BitVec.setWidth 32) h1
  refine ⟨cache_of_raw h0 h1, ?_, e0, e1, e2, e3, ?_⟩
  · rw [e4, BitVec.toNat_setWidth_of_le (by decide)]
  · change wordByte (readReg s 0x18) 0 = x.b4
    rw [e4, wordByte, BitVec.extractLsb'_setWidth_of_le (by decide), BitVec.extractLsb'_eq_self]

/-- Settles O4: the write is to offset 0, and acceptance tests BUSY alone. -/
theorem stepRunsTheDecodedCommand : Obligations.StepRunsTheDecodedCommand := by
  intro s w rest h hbusy
  rw [step_register_write (k := 0) (by decide) h]
  exact if_neg (Bool.eq_false_iff.1 hbusy)

/-- Settles O8: `writeReg` ignores such an offset, and `readReg` has no register at it. -/
theorem readOnlyOffsetsIgnoreWrites : Obligations.ReadOnlyOffsetsIgnoreWrites := by
  refine ⟨fun s k w rest hk hoff h => ?_, fun s k hlow hhigh => ?_⟩
  · rw [step_register_write hk h, writeReg_of_not_writable w _ hoff]
    rfl
  · have hk : k = 11 ∨ k = 12 ∨ k = 13 ∨ k = 14 ∨ k = 15 := by omega
    rcases hk with rfl | rfl | rfl | rfl | rfl <;> rfl

/-- Settles O9, by whether TYPE still takes a write. -/
theorem configWritableOnlyBeforeBegin : Obligations.ConfigWritableOnlyBeforeBegin := by
  refine ⟨fun s w rest h => ?_, fun s => BitVec.toNat_setWidth_of_le (by decide)⟩
  have hstep : step s = .next (writeConfig w (s.withAgenda rest)) := step_register_write (k := 2) (by decide) h
  rw [hstep]
  rcases writeConfig_cases w (s.withAgenda rest) with ⟨hinit, hbusy, e⟩ | ⟨hlocked, e⟩ <;> rw [e]
  · exact ⟨fun _ => rfl, fun hlocked => absurd hlocked (by simpa using ⟨hinit, hbusy⟩)⟩
  · exact ⟨fun hopen => absurd hlocked (by simpa using hopen), fun _ => rfl⟩

/-- Settles O10: `writeArg` has no condition. -/
theorem argWritableAtAnyTime : Obligations.ArgWritableAtAnyTime :=
  fun _ _ _ h => ⟨step_register_write (k := 3) (by decide) h, rfl⟩

/-- No ERR code above 5 is produced (`60_exceptions.md` R241). -/
theorem ErrCode.bits_le (e : ErrCode) : e.bits.toNat ≤ 5 := by
  cases e <;> decide

theorem statusWord_bits (s : State) :
    (statusWord s).getLsbD 0 = s.busy ∧ (statusWord s).getLsbD 1 = s.init ∧ (statusWord s).getLsbD 2 = s.valid ∧
    (statusWord s).getLsbD 3 = s.guardActive ∧ (statusWord s).getLsbD 4 = s.caldef ∧
    (statusWord s).getLsbD 5 = s.nodata := by
  unfold statusWord
  simp only [BitVec.getLsbD_append]
  simp

theorem statusWord_parts (s : State) :
    (statusWord s).extractLsb' 6 2 = 0#2 ∧ (statusWord s).extractLsb' 8 2 = s.outcome.bits ∧
    (statusWord s).extractLsb' 10 2 = 0#2 ∧ (statusWord s).extractLsb' 12 4 = s.err.bits ∧
    (statusWord s).extractLsb' 16 16 = 0#16 := by
  unfold statusWord
  simp +decide only [BitVec.extractLsb'_append_eq_of_le, BitVec.extractLsb'_append_eq_of_add_le]
  simp

/-- Settles O11: each field is cut out of the concatenation at the place that the widths below it give. -/
theorem statusFieldPlaces : Obligations.StatusFieldPlaces := by
  refine ⟨⟨rfl, rfl, rfl, rfl⟩, ⟨rfl, rfl, rfl, rfl, rfl, rfl⟩, fun s => ?_, fun s => ?_⟩
  · obtain ⟨-, -, -, herr, -⟩ := statusWord_parts s
    exact herr ▸ s.err.bits_le
  · obtain ⟨hbusy, hinit, hvalid, hguard, hcaldef, hnodata⟩ := statusWord_bits s
    exact ⟨hbusy, hinit, hvalid, hguard, hcaldef, hnodata, statusWord_parts s⟩

/-- Settles O15: the step is `resetBlock` on the state without that entry. -/
theorem resetStepRestoresTheTable : Obligations.ResetStepRestoresTheTable :=
  fun _ _ h => step_cons h

/-- Settles O56, by the mode. -/
theorem outputPortsFollowTheMode : Obligations.OutputPortsFollowTheMode := by
  refine ⟨fun s h => ?_, fun s h => ?_, fun s h => ?_, fun s => ⟨rfl, rfl, rfl⟩⟩ <;>
    rw [State.pinDir, State.pinOut, h] <;> exact ⟨rfl, rfl⟩

end Sys2Proof.Machine
end

section
/-! PROOFS. The memory family (`20_memory.md`): the host's accesses to the register window. -/

namespace Sys2Proof.Machine

/-! ### Which accesses are defined -/

/-- The three classes of an access in the terms of its window, width and alignment (`20_memory.md` R80 to R82). -/
theorem classifyAccess_cases (off : Int) (width : Nat) :
    (offsetInWindow off = false ∧ classifyAccess off width = .outside) ∨
    (offsetInWindow off = true ∧ (widthDefined width && offsetAligned off) = false ∧
      classifyAccess off width = .undefinedAccess) ∨
    (offsetInWindow off = true ∧ (widthDefined width && offsetAligned off) = true ∧
      classifyAccess off width = .register off.toNat) := by
  unfold classifyAccess
  split
  next hout => exact .inl ⟨by simp [offsetInWindow]; omega, rfl⟩
  next hin =>
    have hwindow : offsetInWindow off = true := by simp [offsetInWindow]; omega
    split
    next hdef => exact .inr (.inr ⟨hwindow, by simp [widthDefined, offsetAligned]; omega, rfl⟩)
    next hundef => exact .inr (.inl ⟨hwindow, by simp [widthDefined, offsetAligned]; omega, rfl⟩)

/-! ### What stops a host access -/

/-- No command stops the machine. -/
theorem exec_next (i : Instr) (s : State) : ∃ t, exec i s = .next t := by
  cases i with
  | readHum force => rw [exec, execReadHum]; split <;> exact ⟨_, rfl⟩
  | readTemp force fahr => rw [exec, execReadTemp]; split <;> exact ⟨_, rfl⟩
  | _ => exact ⟨_, rfl⟩

/-- A register write accepts a command, writes CONFIG or ARG, or is ignored; none of these stops. -/
theorem writeReg_next (off : Nat) (w : Word) (s : State) : ∃ t, writeReg off w s = .next t := by
  unfold writeReg
  split
  · rw [acceptCommand]
    split
    · exact ⟨s, rfl⟩
    · exact exec_next _ _
  all_goals exact ⟨_, rfl⟩

/-- A read and a write stop alike: the class of the access decides (`20_memory.md` R80 to R82, log 13). -/
theorem hostMove_access_cases {op : HostOp} {off : Int} {width : Nat} {w : Word}
    (hop : op = .rd off width ∨ op = .wr off width w) (s : State) :
    (op.wf = false ∧ offsetInWindow off = false ∧ hostMove op s = .refused .outsideWindow) ∨
    (op.wf = false ∧ offsetInWindow off = true ∧ hostMove op s = .fault .badAccess) ∨
    (op.wf = true ∧ offsetInWindow off = true ∧ (widthDefined width && offsetAligned off) = true ∧
      ∃ t, hostMove op s = .next t) := by
  have hwf : op.wf = (offsetInWindow off && (widthDefined width && offsetAligned off)) := by
    rcases hop with rfl | rfl <;> exact Bool.and_assoc _ _ _
  rw [hwf]
  rcases classifyAccess_cases off width with ⟨hout, hc⟩ | ⟨hin, hundef, hc⟩ | ⟨hin, hdef, hc⟩
  · refine .inl ⟨by rw [hout, Bool.false_and], hout, ?_⟩
    rcases hop with rfl | rfl <;> simp only [hostMove, hostRead, hostWrite, hc]
  · refine .inr (.inl ⟨by rw [hundef, Bool.and_false], hin, ?_⟩)
    rcases hop with rfl | rfl <;> simp only [hostMove, hostRead, hostWrite, hc]
  · refine .inr (.inr ⟨by rw [hin, hdef, Bool.and_self], hin, hdef, ?_⟩)
    rcases hop with rfl | rfl <;> simp only [hostMove, hostRead, hostWrite, hc]
    · exact ⟨_, rfl⟩
    · exact writeReg_next _ w s

/-- An access that stops is no defined one, and a defined one does not stop (`20_memory.md` R80, R81). -/
theorem HostOp.wf_iff_next (op : HostOp) (s : State) : op.wf = true ↔ ∃ t, hostMove op s = .next t := by
  have haccess {off : Int} {width : Nat} {w : Word} (hop : op = .rd off width ∨ op = .wr off width w) :
      op.wf = true ↔ ∃ t, hostMove op s = .next t := by
    rcases hostMove_access_cases hop s with ⟨hwf, -, e⟩ | ⟨hwf, -, e⟩ | ⟨hwf, -, -, hnext⟩
    · simp [hwf, e]
    · simp [hwf, e]
    · exact iff_of_true hwf hnext
  cases op with
  | rd off width => exact haccess (w := 0#32) (.inl rfl)
  | wr off width w => exact haccess (.inr rfl)
  | waitIdle => exact iff_of_true rfl ⟨_, rfl⟩

/-- Settles O7: the step is the host's move, which the class of the access decides. -/
theorem onlyDefinedAccessesHaveAStep : Obligations.OnlyDefinedAccessesHaveAStep := by
  intro s op rest h
  have hstep : step s = hostMove op (s.withAgenda rest) := step_cons h
  rw [hstep]
  refine ⟨op.wf_iff_next _, fun off width w hop => ?_⟩
  rcases hostMove_access_cases hop (s.withAgenda rest) with ⟨-, hout, e⟩ | ⟨-, hin, e⟩ | ⟨-, hin, hdef, -⟩
  · exact ⟨fun _ => e, fun hin => absurd hin (by simp [hout])⟩
  · exact ⟨fun hout => absurd hout (by simp [hin]), fun _ _ => e⟩
  · exact ⟨fun hout => absurd hout (by simp [hin]), fun _ hundef => absurd hundef (by simp [hdef])⟩

/-! ### What a host read answers -/

/-- A defined host read puts the register on the bus port, the entry taken from the agenda (`20_memory.md` R87). -/
theorem step_register_read {s : State} {k : Nat} {rest : List Event} (hk : k < 16)
    (h : s.agenda = .host (.rd (4 * k : Nat) 4) :: rest) :
    step s = .next ((s.withAgenda rest).withRdata (readReg s (4 * k))) := by
  rw [step_cons h, perform, hostMove, hostRead, classifyAccess_register k hk]
  rfl

/-- Settles O6: `withRdata` writes the bus port alone, and the narrow registers are read with zeros above them. -/
theorem hostReadHasNoSideEffect : Obligations.HostReadHasNoSideEffect := by
  obtain ⟨-, hreserved⟩ := readOnlyOffsetsIgnoreWrites
  refine ⟨fun s k rest hk h => step_register_read hk h, fun s => ?_⟩
  have hconfig : (readReg s 0x08).toNat = s.configType.toNat := BitVec.toNat_setWidth_of_le (by decide)
  have hraw1 : (readReg s 0x18).toNat = s.raw1.toNat := BitVec.toNat_setWidth_of_le (by decide)
  have hsettle : (readReg s 0x28).toNat = s.settle.toNat := BitVec.toNat_setWidth_of_le (by decide)
  exact ⟨rfl, rfl, hconfig, rfl, rfl, rfl, hraw1, rfl, rfl, rfl, hsettle, hreserved s⟩

end Sys2Proof.Machine
end

section
/-! PROOFS. The encoding family (`30_encoding.md`): the command words, the checksum law and WAITIDLE. -/

namespace Sys2Proof.Machine

/-! ### The fields of a command word -/

theorem ofBool_getLsbD (w : Word) (k : Nat) : BitVec.ofBool (w.getLsbD k) = w.extractLsb' k 1 := by
  ext i hi
  obtain rfl : i = 0 := by omega
  simp

/-- A command word is its three fields below 26 bits that no command uses (`30_encoding.md` R110, R111). -/
theorem word_eq_fields (w : Word) : w = w.extractLsb' 6 26 ++
    (BitVec.ofBool (fahrField w) ++ (BitVec.ofBool (forceField w) ++ opField w)) := by
  have hforce : BitVec.ofBool (forceField w) ++ opField w = w.extractLsb' 0 5 := by
    rw [forceField, ofBool_getLsbD]
    exact BitVec.extractLsb'_append_extractLsb'_eq_extractLsb' rfl
  have hfahr : BitVec.ofBool (fahrField w) ++ w.extractLsb' 0 5 = w.extractLsb' 0 6 := by
    rw [fahrField, ofBool_getLsbD]
    exact BitVec.extractLsb'_append_extractLsb'_eq_extractLsb' rfl
  rw [hforce, hfahr]
  exact (BitVec.extractLsb'_append_extractLsb' (w := 26) (len := 6)).symm

/-- The commands of this opcode use `FORCE = w[4]` (`30_encoding.md` R110's table). -/
def usesForce (c : BitVec 4) : Bool := c == 0x3#4 || c == 0x4#4

/-- The commands of this opcode use `FAHR = w[5]` (`30_encoding.md` R110's table). -/
def usesFahr (c : BitVec 4) : Bool := c == 0x4#4

/-- The used bits are those of the used fields, and the opcode alone says which. -/
theorem usedMask_eq (i : Instr) : usedMask i = 0#26 ++
    (BitVec.ofBool (usesFahr (opcode i)) ++ (BitVec.ofBool (usesForce (opcode i)) ++ BitVec.allOnes 4)) := by
  cases i <;> simp only [usedMask, opcode] <;> rfl

/-- What a command uses of a word: the opcode field, and each flag where its opcode uses it. -/
theorem and_usedMask (w : Word) (i : Instr) : w &&& usedMask i = 0#26 ++
    (BitVec.ofBool (fahrField w && usesFahr (opcode i)) ++
      (BitVec.ofBool (forceField w && usesForce (opcode i)) ++ opField w)) := by
  rw [usedMask_eq]
  refine (congrArg (· &&& _) (word_eq_fields w)).trans (BitVec.and_append.trans ?_)
  rw [BitVec.and_zero, BitVec.and_append, BitVec.and_append, BitVec.ofBool_and_ofBool, BitVec.ofBool_and_ofBool,
    BitVec.and_allOnes]

/-- Every command uses all of its opcode field. -/
theorem opField_and_usedMask (w : Word) (i : Instr) : opField (w &&& usedMask i) = opField w := by
  have hmask : opField (usedMask i) = BitVec.allOnes 4 := by cases i <;> simp only [usedMask] <;> rfl
  calc opField (w &&& usedMask i) = opField w &&& opField (usedMask i) := BitVec.extractLsb'_and
    _ = opField w := by rw [hmask, BitVec.and_allOnes]

/-! ### Decoding and encoding -/

/-- The flags of a decoded word are its flag fields, 0 where its opcode does not use them (`30_encoding.md` R111). -/
theorem flags_decodeWord (w : Word) :
    encodedForce (decodeWord w) = (forceField w && usesForce (opField w)) ∧
    encodedFahr (decodeWord w) = (fahrField w && usesFahr (opField w)) := by
  unfold decodeWord
  generalize opField w = c, forceField w = f, fahrField w = g
  revert c f g
  decide

/-- Encoding what a word decodes to clears the bits the command ignores and no other (`30_encoding.md` R111). -/
theorem encode_decodeWord (w : Word) : encode (decodeWord w) = w &&& usedMask (decodeWord w) := by
  obtain ⟨hforce, hfahr⟩ := flags_decodeWord w
  rw [and_usedMask, encode, hforce, hfahr, opcode_decodeWord]

/-- Decoding inverts encoding (`30_encoding.md` R115). -/
theorem decodeWord_encode (i : Instr) : decodeWord (encode i) = i := by
  cases i with
  | readHum force => cases force <;> rfl
  | readTemp force fahr => cases force <;> cases fahr <;> rfl
  | _ => rfl

theorem encode_injective : Function.Injective encode := Function.LeftInverse.injective decodeWord_encode

theorem opField_encode (i : Instr) : opField (encode i) = opcode i := by
  rw [← opcode_decodeWord, decodeWord_encode]

/-- Settles O2. A word that agrees with a command's encoding has its opcode, so the word's own command uses the same
bits and has the same encoding. -/
theorem decodeIffUsedBitsAgree : Obligations.DecodeIffUsedBitsAgree := by
  intro i w
  constructor
  · rintro rfl
    exact (encode_decodeWord w).symm
  · intro h
    have hop : opcode (decodeWord w) = opcode i := by
      rw [opcode_decodeWord, ← opField_and_usedMask w i, h, opField_encode]
    have hmask : usedMask (decodeWord w) = usedMask i := by rw [usedMask_eq, hop, ← usedMask_eq]
    exact encode_injective (by rw [encode_decodeWord, hmask, h])

/-- The four bytes of a word make it up again, little-endian (`20_memory.md` R83). -/
theorem wordOfBytes_wordByte (w : Word) :
    wordOfBytes (wordByte w 0) (wordByte w 1) (wordByte w 2) (wordByte w 3) = w := by
  have h32 : wordByte w 3 ++ wordByte w 2 = w.extractLsb' 16 16 :=
    BitVec.extractLsb'_append_extractLsb'_eq_extractLsb' rfl
  have h321 : w.extractLsb' 16 16 ++ wordByte w 1 = w.extractLsb' 8 24 :=
    BitVec.extractLsb'_append_extractLsb'_eq_extractLsb' rfl
  have h3210 : w.extractLsb' 8 24 ++ wordByte w 0 = w.extractLsb' 0 32 :=
    BitVec.extractLsb'_append_extractLsb'_eq_extractLsb' rfl
  rw [wordOfBytes, h32, h321, h3210, BitVec.extractLsb'_eq_self]

/-- The bytes of a word decode to the word's command, and the rest of the list is left over. -/
theorem decodeBytes_bytesOfWord (w : Word) (rest : List Byte) :
    decodeBytes (bytesOfWord w ++ rest) = .ok (decodeWord w, rest) :=
  congrArg (fun v => Except.ok (decodeWord v, rest)) (wordOfBytes_wordByte w)

/-- A list too short for the one command format is rejected (`30_encoding.md` R115). -/
theorem decodeBytes_of_length_lt {bs : List Byte} (h : bs.length < 4) : decodeBytes bs = .error .truncated := by
  unfold decodeBytes
  split
  next => simp only [List.length_cons] at h; omega
  next => rfl

/-- Settles O3: the bytes make up the word again, and at word level decoding inverts encoding. -/
theorem bytesDecodeAsTheirWord : Obligations.BytesDecodeAsTheirWord := by
  refine ⟨fun i rest => ?_, decodeBytes_bytesOfWord, fun _ => decodeBytes_of_length_lt⟩
  rw [decodeBytes_bytesOfWord, decodeWord_encode]

/-- Settles O1: the decoder computes each word's command. -/
theorem specWordsDecodeToTheirCommands : Obligations.SpecWordsDecodeToTheirCommands :=
  ⟨rfl, rfl, rfl, rfl, rfl, rfl, rfl, rfl, rfl, rfl⟩

/-! ### The checksum law -/

/-- Settles O30: addition of bytes is that of naturals mod 256. -/
theorem checksumIsTruncatedSum : Obligations.ChecksumIsTruncatedSum := by
  intro x
  have hsum : (x.b0 + x.b1 + x.b2 + x.b3).toNat =
      (x.b0.toNat + x.b1.toNat + x.b2.toNat + x.b3.toNat) % Config.checksumMod := by
    simp [BitVec.toNat_add, Config.checksumMod]
  rw [Sample.checksumOk, decide_eq_true_iff, ← hsum, BitVec.toNat_inj, eq_comm]

/-! ### What a running command has left -/

/-- A micro-operation spends a sample of the running command, or one of its other steps (`40_init.md` R140,
`41_refresh.md` R168). -/
def Spends (s t : State) : Prop :=
  (t.lineTaken = s.lineTaken ∧ samplesLeft t ≤ samplesLeft s ∧ otherStepsLeft t.seq < otherStepsLeft s.seq) ∨
  (t.lineTaken = s.lineTaken + 1 ∧ samplesLeft t < samplesLeft s ∧ otherStepsLeft t.seq ≤ otherStepsLeft s.seq)

theorem samplesLeft_bRef {s : State} (hs : s.seq = .run .bRef) :
    samplesLeft s = s.params.budgetDefault.toNat - s.cnt.toNat + 1 := by
  rw [samplesLeft, hs]

theorem samplesLeft_rMeas {s : State} {j : Fin 82} (hs : s.seq = .run (.rMeas j)) :
    samplesLeft s = s.budget.toNat - s.cnt.toNat + 1 + (81 - j.val) * (s.budget.toNat + 1) := by
  rw [samplesLeft, hs]

/-- A counted sample is one of those that were left up to the bound (`41_refresh.md` R161). -/
theorem toNat_sub_succ_lt_of_not_le {bound cnt : Word} (h : ¬ bound ≤ cnt) :
    bound.toNat - (cnt + 1#32).toNat < bound.toNat - cnt.toNat := by
  bv_omega

/-- A sample of the calibration is counted, or its count is the result (`40_init.md` R134). -/
theorem bRefStep_spends {s : State} (hs : s.seq = .run .bRef) : Spends s (bRefStep s) := by
  have hleft := samplesLeft_bRef hs
  have hend (r : Count) : Spends s (s.lineNext.goto (.bEnd r)) :=
    .inr ⟨rfl, hleft ▸ Nat.succ_pos _, Nat.le_of_eq (congrArg otherStepsLeft hs).symm⟩
  rcases bRefStep_cases s with ⟨-, e⟩ | ⟨-, -, e⟩ | ⟨-, hbelow, e⟩ <;> rw [e]
  · exact hend _
  · exact hend _
  · refine .inr ⟨rfl, ?_, Nat.le_refl _⟩
    rw [hleft, samplesLeft_bRef (s := s.lineNext.setCnt (s.cnt + 1#32)) hs]
    exact Nat.succ_lt_succ (toNat_sub_succ_lt_of_not_le hbelow)

/-- A sample of a pulse is counted, or the pulse ends and the next one has its whole budget (`41_refresh.md` R157). -/
theorem rMeasStep_spends {s : State} {j : Fin 82} (hs : s.seq = .run (.rMeas j)) : Spends s (rMeasStep j s) := by
  have hleft := samplesLeft_rMeas hs
  have hsome : 0 < samplesLeft s := by rw [hleft]; exact Nat.add_pos_left (Nat.succ_pos _) _
  rcases rMeasStep_cases s j with ⟨-, e⟩ | ⟨-, -, e⟩ | ⟨-, hbelow, e⟩ <;> rw [e]
  · have htaken : (pulseDone j s.cnt s.lineNext).lineTaken = s.lineTaken + 1 := pulseDone_lineTaken _ _ _
    rcases pulseDone_seq s.lineNext j s.cnt with ⟨hj, hseq, hcnt, -⟩ | ⟨-, hseq⟩
    · refine .inr ⟨htaken, ?_, by rw [hseq, hs]; exact Nat.le_refl 4⟩
      have hbudget : (pulseDone j s.cnt s.lineNext).budget = s.budget := pulseDone_budget _ _ _
      have hpulses : (81 - j.val) * (s.budget.toNat + 1) =
          (81 - (j.val + 1)) * (s.budget.toNat + 1) + (s.budget.toNat + 1) := by
        rw [← Nat.succ_mul]
        congr 1
        omega
      have hnext : samplesLeft (pulseDone j s.cnt s.lineNext) =
          s.budget.toNat + 1 + (81 - (j.val + 1)) * (s.budget.toNat + 1) := by
        rw [samplesLeft_rMeas hseq, hcnt, hbudget]
        rfl
      rw [hleft, hnext, hpulses]
      omega
    · refine .inr ⟨htaken, ?_, by rw [hseq, hs]; exact Nat.le_refl 4⟩
      have hnone : samplesLeft (pulseDone j s.cnt s.lineNext) = 0 := by rw [samplesLeft, hseq]
      rwa [hnone]
  · exact .inr ⟨rfl, hsome, by rw [hs]; exact Nat.le_add_left 2 2⟩
  · refine .inr ⟨rfl, ?_, Nat.le_refl _⟩
    rw [hleft, samplesLeft_rMeas (s := s.lineNext.setCnt (s.cnt + 1#32)) hs]
    exact Nat.add_lt_add_right (Nat.succ_lt_succ (toNat_sub_succ_lt_of_not_le hbelow)) _

theorem sequence_spends {s : State} (hs : s.seq ≠ .idle) : Spends s (sequence s) := by
  cases hp : s.seq with
  | idle => exact absurd hp hs
  | run p =>
    rw [sequence_run hp]
    cases p with
    | bRef => exact bRefStep_spends hp
    | rMeas j => exact rMeasStep_spends hp
    | bEnd r => obtain ⟨b, t, d, e⟩ := bEndStep_eq s r; left; simp [phaseStep, e, samplesLeft, otherStepsLeft, hp]
    | rCheck => left; simp only [phaseStep, rCheckStep]; split <;> simp [samplesLeft, otherStepsLeft, hp]
    | rValidate => left; simp only [phaseStep, rValidateStep]; split <;> simp [samplesLeft, otherStepsLeft, hp]
    | rDecode => left; simp only [phaseStep, rDecodeStep]; split <;> simp [samplesLeft, otherStepsLeft, hp]
    | bRefEnter => left; simp [phaseStep, bRefEnterStep, samplesLeft, otherStepsLeft, hp]
    | rMeasEnter => left; simp [phaseStep, rMeasEnterStep, samplesLeft, otherStepsLeft, hp]; omega
    | rCommit => left; simp [phaseStep, rCommitStep, State.clockNext, samplesLeft, otherStepsLeft, hp]
    | _ => left; simp [phaseStep, samplesLeft, otherStepsLeft, hp]

theorem stepsLeft_sequence_lt {s : State} (hs : s.seq ≠ .idle) : stepsLeft (sequence s) < stepsLeft s := by
  unfold stepsLeft
  rcases sequence_spends hs with ⟨-, hsamples, hsteps⟩ | ⟨-, hsamples, hsteps⟩ <;> omega

/-! ### WAITIDLE -/

theorem hostPoll_of_busy {s : State} (h : s.busy = true) :
    hostPoll s = (s.withRdata (statusWord s)).withAgenda (.seqMove :: .host .waitIdle :: s.agenda) :=
  if_pos h

theorem hostPoll_of_not_busy {s : State} (h : s.busy = false) : hostPoll s = s.withRdata (statusWord s) :=
  if_neg (Bool.eq_false_iff.1 h)

/-- Settles O13: the poll is `hostPoll` on the state without that entry. -/
theorem waitIdlePollsBusy : Obligations.WaitIdlePollsBusy := by
  intro s rest h
  have hstep : step s = .next (hostPoll (s.withAgenda rest)) := step_cons h
  rw [hstep]
  exact ⟨fun hbusy => congrArg Host.Outcome.next (hostPoll_of_not_busy hbusy),
    fun hbusy => congrArg Host.Outcome.next (hostPoll_of_busy hbusy)⟩

/-- One round of WAITIDLE on a busy block: a poll, then a micro-operation, and WAITIDLE again. -/
theorem waitIdle_round {s : State} {rest : List Event} (hinv : Inv s) (h : s.agenda = .host .waitIdle :: rest)
    (hbusy : s.busy = true) :
    ∃ t, core.run 2 s = .next t ∧ Inv t ∧ t.agenda = .host .waitIdle :: rest ∧ stepsLeft t < stepsLeft s := by
  have hpoll := (waitIdlePollsBusy s rest h).2 hbusy
  exact ⟨_, (run_succ_of_step 1 hpoll).trans (run_succ_of_step 0 (step_of_sequencerMoves (.inr rfl))),
    inv_sequence (hinv.of_host_data _ _ _), sequence_agenda _, stepsLeft_sequence_lt (hinv.busy_iff_running.1 hbusy)⟩

/-- Settles O48, by induction on what the running command has left: a round of the loop spends some of it. -/
theorem waitIdleReturns : Obligations.WaitIdleReturns := by
  intro s rest hinv h
  induction hn : stepsLeft s using Nat.strongRecOn generalizing s with
  | ind n ih =>
    subst hn
    cases hbusy : s.busy with
    | false =>
      have hpoll := (waitIdlePollsBusy s rest h).1 hbusy
      exact ⟨1, _, by omega, run_succ_of_step 0 hpoll, rfl, hbusy, hinv.idle_of_not_busy hbusy, rfl⟩
    | true =>
      obtain ⟨u, hround, hinv', h', hless⟩ := waitIdle_round hinv h hbusy
      obtain ⟨k, t, hk, hrun, hend⟩ := ih _ hless u hinv' h' rfl
      exact ⟨2 + k, t, by omega, (run_add k hround).trans hrun, hend⟩

end Sys2Proof.Machine
end

section
/-! PROOFS. The init family (`40_init.md`): the micro-steps of BEGIN and of a wire cycle whichever way the turn comes to
the sequencer, the runs of BEGIN to its end, and the end of every command. -/

namespace Sys2Proof.Machine

/-! ### Acceptance -/

/-- A reserved discriminator makes the command atomic (`40_init.md` R133). -/
theorem initSeq_of_reserved {s : State} (opc : BitVec 4) (settle : Half) (h : s.configType ≠ 0x00#8) :
    initSeq opc settle s = s.setErr .badConfig :=
  if_pos h

theorem initSeq_of_supported {s : State} (opc : BitVec 4) (settle : Half) (h : s.configType = 0x00#8) :
    initSeq opc settle s = { s with settle := settle }.start opc .bHigh :=
  if_neg (not_not_intro h)

/-- Settles O21: both commands are `initSeq` with their own settle time. -/
theorem beginRefusesReservedType : Obligations.BeginRefusesReservedType :=
  fun _ h => ⟨congrArg Host.Outcome.next (initSeq_of_reserved _ _ h),
    congrArg Host.Outcome.next (initSeq_of_reserved _ _ h)⟩

/-- Settles O22: both commands are `initSeq` with their own settle time. -/
theorem beginIsAcceptedAndStarts : Obligations.BeginIsAcceptedAndStarts :=
  fun _ h => ⟨congrArg Host.Outcome.next (initSeq_of_supported _ _ h),
    congrArg Host.Outcome.next (initSeq_of_supported _ _ h)⟩

/-! ### The micro-steps -/

/-- Settles O57: each step is its phase's micro-operation on the state without the agenda entry. -/
theorem driveAndWaitPhases : Obligations.DriveAndWaitPhases := by
  intro s turn
  and_intros
  all_goals
    intro hs
    rw [step_of_phase turn hs]
    rfl

/-- The guard entry and the first measurement's counter (`40_init.md` R136). -/
theorem bRefEnterStep_eq (s : State) :
    bRefEnterStep s = { s with guardActive := true, cnt := 0#32, seq := .run .bRef } := by
  simp only [bRefEnterStep, State.guardEnter, State.setCnt, State.goto]

/-- The guard entry, the staging buffer and the first measurement's counter (`41_refresh.md` R151). -/
theorem rMeasEnterStep_eq (s : State) :
    rMeasEnterStep s =
      { s with guardActive := true, cnt := 0#32, stage := Sample.zero, seq := .run (.rMeas 0) } := by
  simp only [rMeasEnterStep, State.guardEnter, State.setStage, State.setCnt, State.goto]

/-- R_COMMIT's clock read and writes (`41_refresh.md` R166). -/
theorem rCommitStep_eq (s : State) :
    rCommitStep s =
      { s with raw0 := s.stage.raw0, raw1 := s.stage.b4, ts := s.clockWord, clockIn := s.clockIn.tail,
               clockTaken := s.clockTaken + 1, valid := true, outcome := .fresh, err := .none,
               seq := .run .rDecode } := by
  simp only [rCommitStep, State.clockNext, State.goto]

/-- R_VALIDATE's test with the checksum law as an addition of bytes (`41_refresh.md` R165). -/
theorem rValidateStep_eq (s : State) :
    rValidateStep s =
      { s with seq := if s.stage.b4 = s.stage.b0 + s.stage.b1 + s.stage.b2 + s.stage.b3 then .run .rCommit
                 else .run (.rAbort .checksumMismatch) } := by
  have hsum := checksumIsTruncatedSum s.stage
  unfold rValidateStep
  by_cases hok : s.stage.checksumOk = true
  · rw [if_pos hok, if_pos (hsum.1 hok)]
    rfl
  · rw [if_neg hok, if_neg (mt hsum.2 hok)]
    rfl

/-- Settles O58: as O57, with what each micro-operation writes. -/
theorem guardValidateAndCommitPhases : Obligations.GuardValidateAndCommitPhases := by
  intro s turn
  refine ⟨fun hs => ?_, fun hs => ?_, fun hs => ?_, fun hs => ?_, fun hs => ?_⟩ <;>
    rw [step_of_phase turn hs, phaseStep]
  · rw [bRefEnterStep_eq]
    rfl
  · rw [rMeasEnterStep_eq]
    rfl
  · rfl
  · rw [rValidateStep_eq]
    rfl
  · rw [rCommitStep_eq]
    rfl

/-- B_END where no reference pulse, or an empty one, was observed (`40_init.md` R134 to R136). -/
theorem bEndStep_default {r : Count} (h : r = .timeout ∨ r = .value 0#32) (s : State) :
    bEndStep r s =
      { s with guardActive := false, budget := s.params.budgetDefault, bitthr := s.params.thrDefault, caldef := true,
               raw0 := 0#32, raw1 := 0#8, ts := 0#32, valid := false, outcome := .none, nodata := false, init := true,
               err := .none, busy := false, seq := .idle } := by
  rcases h with rfl | rfl <;> rfl

/-- B_END after an observed reference pulse (`40_init.md` R134 to R136). -/
theorem bEndStep_value {n : Word} (h : n ≠ 0#32) (s : State) :
    bEndStep (.value n) s =
      { s with guardActive := false, budget := budgetOf s.params n, bitthr := thresholdOf s.params n, caldef := false,
               raw0 := 0#32, raw1 := 0#8, ts := 0#32, valid := false, outcome := .none, nodata := false, init := true,
               err := .none, busy := false, seq := .idle } := by
  rw [bEndStep, calibrate, if_neg h]
  rfl

/-- Settles O60, by what the measurement gave. -/
theorem endOfBeginTakesOneStep : Obligations.EndOfBeginTakesOneStep := by
  intro s r turn hs
  rw [step_of_phase turn hs, phaseStep]
  refine ⟨fun hr => ?_, fun n hn hr => ?_⟩
  · rw [bEndStep_default hr]
    rfl
  · rw [hr, bEndStep_value hn]
    rfl

/-! ### Every command ends -/

/-- The micro-steps of a command spend what it has left, so some number of them reaches IDLE. -/
theorem sequenceN_reaches_idle (s : State) :
    ∃ k ≤ stepsLeft s, (sequenceN k s).seq = .idle ∧ (sequenceN k s).lineTaken ≤ s.lineTaken + samplesLeft s ∧
      (Inv s → Inv (sequenceN k s)) := by
  induction hn : stepsLeft s using Nat.strongRecOn generalizing s with
  | ind n ih =>
    subst hn
    by_cases hs : s.seq = .idle
    · exact ⟨0, Nat.zero_le _, hs, Nat.le_add_right _ _, id⟩
    · have hless := stepsLeft_sequence_lt hs
      obtain ⟨k, hk, hidle, htaken, hinv⟩ := ih _ hless (sequence s) rfl
      refine ⟨k + 1, by omega, hidle, Nat.le_trans htaken ?_, fun h => hinv (inv_sequence h)⟩
      rcases sequence_spends hs with ⟨hsame, hleft, -⟩ | ⟨hone, hleft, -⟩ <;> omega

/-- Settles O46: with no access pending the run is the sequencer's. -/
theorem everyCommandEnds : Obligations.EveryCommandEnds := by
  intro s h
  obtain ⟨k, hk, hidle, htaken, hinv⟩ := sequenceN_reaches_idle s
  refine ⟨k, sequenceN k s, hk, run_of_no_agenda k h, hidle, htaken, fun hs => ?_⟩
  exact eq_false_of_ne_true fun hbusy => (hinv hs).busy_iff_running.1 hbusy hidle

/-! ### The measurement of the reference pulse -/

/-- A state with `n` samples of the line taken and counted, the answers `rest` still to come. -/
def countedSamples (n : Nat) (rest : List Bool) (s : State) : State :=
  { s with cnt := s.cnt + BitVec.ofNat 32 n, lineIn := rest, lineTaken := s.lineTaken + n }

theorem countedSamples_zero (s : State) : countedSamples 0 s.lineIn s = s := by
  simp [countedSamples]

theorem countedSamples_succ (n : Nat) (rest : List Bool) (s : State) :
    countedSamples (n + 1) rest s = countedSamples n rest (s.lineNext.setCnt (s.cnt + 1#32)) := by
  have hcnt : s.cnt + BitVec.ofNat 32 (n + 1) = s.cnt + 1#32 + BitVec.ofNat 32 n := by
    rw [Nat.add_comm, BitVec.ofNat_add, BitVec.add_assoc]
  have htaken : s.lineTaken + (n + 1) = s.lineTaken + 1 + n := by omega
  simp only [countedSamples, State.setCnt, State.lineNext, hcnt, htaken]

/-- Low samples up to `BUDGET_DEFAULT` are counted (`40_init.md` R134, `41_refresh.md` R160). -/
theorem sequenceN_low {s : State} {n : Nat} {rest : List Bool} (hs : s.seq = .run .bRef)
    (hn : s.cnt.toNat + n ≤ s.params.budgetDefault.toNat) (hline : s.lineIn = List.replicate n false ++ rest) :
    sequenceN n s = countedSamples n rest s := by
  induction n generalizing s with
  | zero => exact (hline ▸ countedSamples_zero s).symm
  | succ n ih =>
    have hcons : s.lineIn = false :: (List.replicate n false ++ rest) := hline
    have hbelow : ¬ s.params.budgetDefault ≤ s.cnt := by bv_omega
    have hcnt : (s.cnt + 1#32).toNat = s.cnt.toNat + 1 := by bv_omega
    have hstep : sequence s = s.lineNext.setCnt (s.cnt + 1#32) := by
      rw [sequence_run hs, phaseStep, bRefStep, measureSample_counts (lineBit_of_cons hcons) hbelow]
    rw [sequenceN, hstep, countedSamples_succ]
    refine ih hs ?_ (congrArg List.tail hcons)
    have hbound : (s.cnt + 1#32).toNat + n ≤ s.params.budgetDefault.toNat := by omega
    exact hbound

/-- A high sample ends the measurement with the count (`40_init.md` R134). -/
theorem bRefStep_of_high {s : State} (h : s.lineBit = true) :
    bRefStep s = s.lineNext.goto (.bEnd (.value s.cnt)) := by
  rw [bRefStep, measureSample_of_ne (by simp [h])]

/-- A low sample at the bound times out (`40_init.md` R134). -/
theorem bRefStep_of_low_at_bound {s : State} (h : s.lineBit = false) (hfull : s.params.budgetDefault ≤ s.cnt) :
    bRefStep s = s.lineNext.goto (.bEnd .timeout) := by
  rw [bRefStep, measureSample_timeout h hfull]

/-- The reference pulse and the sample after it, where that sample ends the measurement (`40_init.md` R134). -/
theorem sequenceN_reference {s : State} {n : Nat} {b : Bool} {rest : List Bool} {r : Count} (hs : s.seq = .run .bRef)
    (hcnt : s.cnt = 0#32) (hn : n ≤ s.params.budgetDefault.toNat)
    (hline : s.lineIn = List.replicate n false ++ b :: rest)
    (hlast : bRefStep (countedSamples n (b :: rest) s) = (countedSamples n (b :: rest) s).lineNext.goto (.bEnd r)) :
    sequenceN (n + 1) s =
      { s with cnt := BitVec.ofNat 32 n, lineIn := rest, lineTaken := s.lineTaken + (n + 1),
               seq := .run (.bEnd r) } := by
  have hlow : sequenceN n s = countedSamples n (b :: rest) s := sequenceN_low hs (by simpa [hcnt] using hn) hline
  have hphase : (countedSamples n (b :: rest) s).seq = .run .bRef := hs
  rw [sequenceN_add, hlow, sequenceN, sequence_run hphase, phaseStep, hlast]
  simp [sequenceN, countedSamples, State.lineNext, State.goto, hcnt, Nat.add_assoc]

theorem countedSamples_cnt {s : State} (h : s.cnt = 0#32) (n : Nat) (rest : List Bool) :
    (countedSamples n rest s).cnt = BitVec.ofNat 32 n := by
  simp [countedSamples, h]

/-- A reference pulse within the bound gives its count. -/
theorem sequenceN_pulse {s : State} {n : Nat} {rest : List Bool} (hs : s.seq = .run .bRef) (hcnt : s.cnt = 0#32)
    (hn : n ≤ s.params.budgetDefault.toNat) (hline : s.lineIn = pulse false n ++ rest) :
    sequenceN (n + 1) s =
      { s with cnt := BitVec.ofNat 32 n, lineIn := rest, lineTaken := s.lineTaken + (n + 1),
               seq := .run (.bEnd (.value (BitVec.ofNat 32 n))) } := by
  have hline' : s.lineIn = List.replicate n false ++ true :: rest := by simpa [pulse] using hline
  have hlast := bRefStep_of_high (s := countedSamples n (true :: rest) s) rfl
  rw [countedSamples_cnt hcnt] at hlast
  exact sequenceN_reference hs hcnt hn hline' hlast

/-- A line stuck low times out at the bound. -/
theorem sequenceN_stuck {s : State} {rest : List Bool} (hs : s.seq = .run .bRef) (hcnt : s.cnt = 0#32)
    (hline : s.lineIn = List.replicate (s.params.budgetDefault.toNat + 1) false ++ rest) :
    sequenceN (s.params.budgetDefault.toNat + 1) s =
      { s with cnt := s.params.budgetDefault, lineIn := rest,
               lineTaken := s.lineTaken + (s.params.budgetDefault.toNat + 1), seq := .run (.bEnd .timeout) } := by
  have hline' : s.lineIn = List.replicate s.params.budgetDefault.toNat false ++ false :: rest := by
    simpa [List.replicate_succ'] using hline
  have hfull : s.params.budgetDefault ≤ (countedSamples s.params.budgetDefault.toNat (false :: rest) s).cnt := by
    simp [countedSamples_cnt hcnt]
  simpa using sequenceN_reference hs hcnt (Nat.le_refl _) hline' (bRefStep_of_low_at_bound rfl hfull)

/-! ### BEGIN run to its end -/

/-- The state at the first sample of the reference pulse, after the three waits (`40_init.md` R136). -/
def atReference (s : State) : State :=
  { s with pinMode := .inPullup, guardActive := true, cnt := 0#32, seq := .run .bRef,
           waitedUs := s.waitedUs + s.params.tIdleUs.toNat + s.params.tWakeUs.toNat + s.settle.toNat }

theorem sequenceN_bHigh {s : State} (hs : s.seq = .run .bHigh) : sequenceN 7 s = atReference s := by
  simp [sequenceN, sequence, hs, phaseStep, bRefEnterStep_eq, atReference, State.goto, State.pinDriveHigh,
    State.pinDriveLow, State.pinRelease, State.delayUs, State.params]

/-- BEGIN is its wake and settle phases, the measurement and B_END (`40_init.md` R136). -/
theorem sequenceN_begin {s t : State} {m : Nat} {r : Count} (hs : s.seq = .run .bHigh)
    (hmeasure : sequenceN m (atReference s) = t) (ht : t.seq = .run (.bEnd r)) :
    sequenceN (m + 8) s = bEndStep r t := by
  have hsteps : m + 8 = 7 + (m + 1) := by omega
  rw [hsteps, sequenceN_add, sequenceN_bHigh hs, sequenceN_add, hmeasure, sequenceN, sequence_run ht]
  rfl

/-- The two forms of BEGIN with their opcode and settle time (`40_init.md` R131, R132). -/
def BeginForm (s : State) (i : Instr) (opc : BitVec 4) (settle : Half) : Prop :=
  (i = .beginCmd ∧ opc = 0x1#4 ∧ settle = s.params.settleDefaultUs) ∨
  (i = .beginArg ∧ opc = 0x2#4 ∧ settle = s.arg.extractLsb' 0 16)

theorem BeginForm.exec_eq {s : State} {i : Instr} {opc : BitVec 4} {settle : Half} (hi : BeginForm s i opc settle)
    (htype : s.configType = 0x00#8) : exec i s = .next ({ s with settle := settle }.start opc .bHigh) := by
  obtain ⟨hbegin, harg⟩ := beginIsAcceptedAndStarts s htype
  rcases hi with ⟨rfl, rfl, rfl⟩ | ⟨rfl, rfl, rfl⟩
  · exact hbegin
  · exact harg

/-- A BEGIN left to itself, from the measurement's result (`40_init.md` R136). -/
theorem BeginForm.run {s t : State} {i : Instr} {opc : BitVec 4} {settle : Half} {m : Nat} {r : Count}
    (hi : BeginForm s i opc settle) (h : s.agenda = []) (htype : s.configType = 0x00#8)
    (hmeasure : sequenceN m (atReference ({ s with settle := settle }.start opc .bHigh)) = t)
    (ht : t.seq = .run (.bEnd r)) : ∃ a, exec i s = .next a ∧ core.run (m + 8) a = .next (bEndStep r t) := by
  have hidle : ({ s with settle := settle }.start opc .bHigh).agenda = [] := h
  refine ⟨_, hi.exec_eq htype, ?_⟩
  rw [run_of_no_agenda (m + 8) hidle, sequenceN_begin rfl hmeasure ht]

/-- Settles O24, by whether the reference pulse is empty. -/
theorem beginCalibratesOnTheReferencePulse : Obligations.BeginCalibratesOnTheReferencePulse := by
  intro s n rest h htype hn hline i opc settle hi
  obtain ⟨a, hexec, hrun⟩ := BeginForm.run hi h htype (sequenceN_pulse rfl rfl hn hline) rfl
  refine ⟨a, hexec, hrun.trans (congrArg Host.Outcome.next ?_)⟩
  by_cases hzero : n = 0
  · subst hzero
    rw [bEndStep_default (.inr rfl)]
    rfl
  · have hne : BitVec.ofNat 32 n ≠ 0#32 := by bv_omega
    rw [bEndStep_value hne, if_neg hzero, if_neg hzero, decide_eq_false hzero]
    rfl

/-- Settles O25: the measurement of a stuck line times out. -/
theorem beginFallsBackOnAStuckLine : Obligations.BeginFallsBackOnAStuckLine := by
  intro s rest h htype hline i opc settle hi
  obtain ⟨a, hexec, hrun⟩ := BeginForm.run hi h htype (sequenceN_stuck rfl rfl hline) rfl
  refine ⟨a, hexec, hrun.trans (congrArg Host.Outcome.next ?_)⟩
  rw [bEndStep_default (.inl rfl)]
  rfl

end Sys2Proof.Machine
end

section
/-! PROOFS. The refresh family (`41_refresh.md`): the acceptance of an accessor, the rate limit, one sample, one
measurement, and the assembly of a byte. -/

namespace Sys2Proof.Machine

/-! ### Acceptance and the rate limit -/

/-- Settles O23: INIT is 1, so each accessor starts. -/
theorem accessorIsAcceptedAndStarts : Obligations.AccessorIsAcceptedAndStarts :=
  fun _ _ _ hinit => ⟨if_pos hinit, if_pos hinit⟩

/-- The skip condition, with the elapsed time as a natural number (`41_refresh.md` R152). -/
theorem skips_eq_true_iff {force valid : Bool} {now ts : Word} :
    skips force valid now ts = true ↔
      force = false ∧ valid = true ∧ (now.toNat + (2 ^ 32 - ts.toNat)) % 2 ^ 32 < 2000 := by
  simp [skips, Config.rateLimitMs, BitVec.toNat_sub, Nat.add_comm, and_assoc]

theorem rCheckStep_of_skips {s : State} (h : skips s.force s.valid s.clockWord s.ts = true) :
    rCheckStep s =
      { s with clockIn := s.clockIn.tail, clockTaken := s.clockTaken + 1, outcome := .skipped, err := .none,
               seq := .run .rDecode } :=
  if_pos h

theorem rCheckStep_of_not_skips {s : State} (h : skips s.force s.valid s.clockWord s.ts = false) :
    rCheckStep s =
      { s with clockIn := s.clockIn.tail, clockTaken := s.clockTaken + 1, seq := .run .rWake } :=
  if_neg (Bool.eq_false_iff.1 h)

/-- Settles O31, by the skip condition. -/
theorem rateLimitSkipsTheWireCycle : Obligations.RateLimitSkipsTheWireCycle := by
  intro s turn hs
  rw [step_of_phase turn hs, phaseStep]
  refine ⟨fun hskip => ?_, fun hgo => ?_⟩
  · exact congrArg _ (rCheckStep_of_skips (s := s.withAgenda s.agenda.tail) (skips_eq_true_iff.2 hskip))
  · have hnot : skips s.force s.valid s.clockWord s.ts = false := by
      refine Bool.eq_false_iff.2 (mt skips_eq_true_iff.1 ?_)
      rintro ⟨hforce, hvalid, hrecent⟩
      rcases hgo with hforced | hinvalid | hlater
      · simp [hforce] at hforced
      · simp [hvalid] at hinvalid
      · omega
    exact congrArg _ (rCheckStep_of_not_skips (s := s.withAgenda s.agenda.tail) hnot)

/-! ### One sample -/

/-- A low sample below the bound is counted (`40_init.md` R134, `41_refresh.md` R160). -/
theorem bRefStep_of_low_below {s : State} (h : s.lineBit = false) (hbelow : s.cnt < s.params.budgetDefault) :
    bRefStep s = s.lineNext.setCnt (s.cnt + 1#32) := by
  rw [bRefStep, measureSample_counts h (BitVec.not_le.2 hbelow)]

section
variable {s : State} {j : Fin 82}

/-- A sample at the other level ends the pulse (`41_refresh.md` R160). -/
theorem rMeasStep_of_ne (h : s.lineBit ≠ pulseLevel j.val) : rMeasStep j s = pulseDone j s.cnt s.lineNext := by
  rw [rMeasStep, measureSample_of_ne h]

/-- A sample at the level times out where the count is at the bound (`41_refresh.md` R158). -/
theorem rMeasStep_at_bound (h : s.lineBit = pulseLevel j.val) (hfull : s.budget ≤ s.cnt) :
    rMeasStep j s = s.lineNext.goto (.rAbort .timeout) := by
  rw [rMeasStep, measureSample_timeout h hfull]

/-- A sample at the level below the bound is counted (`41_refresh.md` R160). -/
theorem rMeasStep_below (h : s.lineBit = pulseLevel j.val) (hbelow : s.cnt < s.budget) :
    rMeasStep j s = s.lineNext.setCnt (s.cnt + 1#32) := by
  rw [rMeasStep, measureSample_counts h (BitVec.not_le.2 hbelow)]

end

/-- Settles O59: the three cases of a sample, for the calibration and for a wire cycle. -/
theorem oneSampleStep : Obligations.OneSampleStep := by
  intro s turn
  refine ⟨fun hs => ?_, fun j hs => ?_⟩ <;> rw [step_of_phase turn hs, phaseStep]
  · refine ⟨fun hhigh => ?_, fun hlow hfull => ?_, fun hlow hbelow => ?_⟩
    · exact congrArg _ (bRefStep_of_high (s := s.withAgenda s.agenda.tail) hhigh)
    · exact congrArg _ (bRefStep_of_low_at_bound (s := s.withAgenda s.agenda.tail) hlow hfull)
    · exact congrArg _ (bRefStep_of_low_below (s := s.withAgenda s.agenda.tail) hlow hbelow)
  · refine ⟨fun hother => ?_, fun hlevel hfull => ?_, fun hlevel hbelow => ?_⟩
    · exact congrArg _ (rMeasStep_of_ne (s := s.withAgenda s.agenda.tail) hother)
    · exact congrArg _ (rMeasStep_at_bound (s := s.withAgenda s.agenda.tail) hlevel hfull)
    · exact congrArg _ (rMeasStep_below (s := s.withAgenda s.agenda.tail) hlevel hbelow)

/-! ### One measurement -/

/-- Settles O28: the comparison of words is that of their naturals. -/
theorem classifyIsStrictlyAbove : Obligations.ClassifyIsStrictlyAbove :=
  fun _ _ => rfl

section
variable {s : State} {j : Fin 82} (hs : s.seq = .run (.rMeas j))
include hs

/-- Samples at the level are counted up to the budget (`41_refresh.md` R160). -/
theorem sequenceN_level {n : Nat} {rest : List Bool} (hn : s.cnt.toNat + n ≤ s.budget.toNat)
    (hline : s.lineIn = List.replicate n (pulseLevel j.val) ++ rest) : sequenceN n s = countedSamples n rest s := by
  induction n generalizing s with
  | zero => exact (hline ▸ countedSamples_zero s).symm
  | succ n ih =>
    have hcons : s.lineIn = pulseLevel j.val :: (List.replicate n (pulseLevel j.val) ++ rest) := hline
    have hbelow : s.cnt < s.budget := by bv_omega
    have hbound : (s.cnt + 1#32).toNat + n ≤ s.budget.toNat := by bv_omega
    rw [sequenceN, sequence_run hs, phaseStep, rMeasStep_below (lineBit_of_cons hcons) hbelow, countedSamples_succ]
    exact ih hs hbound (congrArg List.tail hcons)

/-- Samples at the level and the one after them (`41_refresh.md` R160). -/
theorem sequenceN_level_succ {n : Nat} {b : Bool} {rest : List Bool} (hcnt : s.cnt = 0#32) (hn : n ≤ s.budget.toNat)
    (hline : s.lineIn = List.replicate n (pulseLevel j.val) ++ b :: rest) :
    sequenceN (n + 1) s = rMeasStep j (countedSamples n (b :: rest) s) := by
  have hlevel : sequenceN n s = countedSamples n (b :: rest) s :=
    sequenceN_level hs (by simpa [hcnt] using hn) hline
  have hphase : (countedSamples n (b :: rest) s).seq = .run (.rMeas j) := hs
  rw [sequenceN_add, hlevel, sequenceN, sequence_run hphase]
  rfl

/-- A pulse within the budget gives its count (`41_refresh.md` R161). -/
theorem sequenceN_pulseDone {n : Nat} {rest : List Bool} (hcnt : s.cnt = 0#32) (hn : n ≤ s.budget.toNat)
    (hline : s.lineIn = pulse (pulseLevel j.val) n ++ rest) :
    sequenceN (n + 1) s = pulseDone j (BitVec.ofNat 32 n)
      { s with cnt := BitVec.ofNat 32 n, lineIn := rest, lineTaken := s.lineTaken + (n + 1) } := by
  have hline' : s.lineIn = List.replicate n (pulseLevel j.val) ++ (!pulseLevel j.val) :: rest := by
    simpa [pulse] using hline
  have hother : (countedSamples n ((!pulseLevel j.val) :: rest) s).lineBit ≠ pulseLevel j.val := by
    rw [lineBit_of_cons rfl]
    cases pulseLevel j.val <;> decide
  rw [sequenceN_level_succ hs hcnt hn hline', rMeasStep_of_ne hother, countedSamples_cnt hcnt]
  simp [countedSamples, State.lineNext, hcnt, Nat.add_assoc]

/-- A pulse longer than the budget times out after `BUDGET + 1` samples (`41_refresh.md` R158, R161). -/
theorem sequenceN_timeout {rest : List Bool} (hcnt : s.cnt = 0#32)
    (hline : s.lineIn = List.replicate (s.budget.toNat + 1) (pulseLevel j.val) ++ rest) :
    sequenceN (s.budget.toNat + 1) s =
      { s with cnt := s.budget, lineIn := rest, lineTaken := s.lineTaken + (s.budget.toNat + 1),
               seq := .run (.rAbort .timeout) } := by
  have hline' : s.lineIn = List.replicate s.budget.toNat (pulseLevel j.val) ++ pulseLevel j.val :: rest := by
    simpa [List.replicate_succ'] using hline
  have hfull : s.budget ≤ (countedSamples s.budget.toNat (pulseLevel j.val :: rest) s).cnt := by
    simp [countedSamples_cnt hcnt]
  rw [sequenceN_level_succ hs hcnt (Nat.le_refl _) hline', rMeasStep_at_bound (lineBit_of_cons rfl) hfull]
  simp [countedSamples, State.lineNext, State.goto, hcnt, Nat.add_assoc]

end

/-- A sample that does not end the measurement adds 1 to a count below the bound (`41_refresh.md` R161 (e)). -/
theorem measureSample_cnt_le {s : State} (lvl : Bool) {bound : Word} (h : s.cnt.toNat ≤ bound.toNat) :
    (measureSample lvl bound s).2.cnt.toNat ≤ bound.toNat ∧
    ((measureSample lvl bound s).1 = none → (measureSample lvl bound s).2.cnt.toNat = s.cnt.toNat + 1) := by
  rcases measureSample_cases lvl bound s with ⟨-, e⟩ | ⟨-, -, e⟩ | ⟨-, hbelow, e⟩ <;> rw [e]
  · exact ⟨h, nofun⟩
  · exact ⟨h, nofun⟩
  · have hcnt : (s.cnt + 1#32).toNat = s.cnt.toNat + 1 := by bv_omega
    exact ⟨toNat_succ_le_of_not_le hbelow, fun _ => hcnt⟩

/-- Settles O27: with no access pending the runs are the sequencer's. -/
theorem measureCountsAPulse : Obligations.MeasureCountsAPulse := by
  refine ⟨fun s j n rest h hs hcnt hn hline => ?_, fun s j rest h hs hcnt hline => ?_,
    fun s lvl bound => measureSample_cnt_le lvl⟩
  · rw [run_of_no_agenda (n + 1) h, sequenceN_pulseDone hs hcnt hn hline]
  · rw [run_of_no_agenda (s.budget.toNat + 1) h, sequenceN_timeout hs hcnt hline]

/-! ### Assembly of a byte -/

/-- A data bit shifted in stands at bit 0, and every other bit moves up by one (`41_refresh.md` R163). -/
theorem getLsbD_pushBit (x : Byte) (b : Bool) {k : Nat} (hk : k < 8) :
    (pushBit x b).getLsbD k = if k = 0 then b else x.getLsbD (k - 1) := by
  have hconcat : pushBit x b = x.shiftConcat b := by
    apply BitVec.eq_of_toNat_eq
    simp [pushBit, BitVec.toNat_shiftConcat, Nat.shiftLeft_eq]
  rw [hconcat, BitVec.getLsbD_shiftConcat, decide_eq_true hk, Bool.true_and]

/-- The last bit shifted in stands at bit 0, the one before it at bit 1, and so on; what the byte held is above them. -/
theorem getLsbD_foldl_pushBit (x : Byte) (bs : List Bool) {k : Nat} (hk : k < 8) :
    (bs.foldl pushBit x).getLsbD k =
      if k < bs.length then bs.getD (bs.length - 1 - k) false else x.getLsbD (k - bs.length) := by
  induction bs generalizing x with
  | nil => rfl
  | cons b bs ih =>
    rw [List.foldl_cons, ih, List.length_cons, Nat.add_sub_cancel]
    rcases Nat.lt_trichotomy k bs.length with hlt | heq | hgt
    · have hindex : bs.length - k = bs.length - 1 - k + 1 := by omega
      rw [if_pos hlt, if_pos (by omega), hindex, List.getD_cons_succ]
    · rw [if_neg (by omega), if_pos (by omega), heq, Nat.sub_self, getLsbD_pushBit _ _ (by decide), if_pos rfl,
        List.getD_cons_zero]
    · rw [if_neg (by omega), if_neg (by omega), getLsbD_pushBit _ _ (by omega), if_neg (by omega), Nat.sub_sub]

/-- Settles O29: of eight bits, bit `m` stands at bit `7 - m`. -/
theorem eightBitsAssembleMsbFirst : Obligations.EightBitsAssembleMsbFirst := by
  intro x bs hlen m hm
  have hindex : bs.length - 1 - (7 - m) = m := by omega
  rw [getLsbD_foldl_pushBit x bs (by omega), if_pos (by omega), hindex]

end Sys2Proof.Machine
end

section
/-! PROOFS. The refresh over a frame (`41_refresh.md` R151 to R169): the bytes its data bits assemble, the state between
two of its pulses, and the three ends of a wire cycle. -/

namespace Sys2Proof.Machine

/-! ### Assembly of the five bytes -/

/-- The staging buffer once `k` data bits of the frame are shifted in (`41_refresh.md` R163). -/
def stageAfter (thr : Word) (counts : List Nat) : Nat → Sample
  | 0 => Sample.zero
  | k + 1 => (stageAfter thr counts k).shiftIn (k / 8) (frameBit thr counts k)

/-- Byte `i` of a sample, in RawSample order. -/
def Sample.byte (x : Sample) : Fin 5 → Byte
  | 0 => x.b0
  | 1 => x.b1
  | 2 => x.b2
  | 3 => x.b3
  | 4 => x.b4

theorem Sample.eq_of_byte_eq {x y : Sample} (h : ∀ i, x.byte i = y.byte i) : x = y := by
  cases x
  cases y
  exact Sample.mk.injEq .. ▸ ⟨h 0, h 1, h 2, h 3, h 4⟩

theorem Sample.byte_shiftIn (x : Sample) (i j : Fin 5) (b : Bool) :
    (x.shiftIn j.val b).byte i = if j = i then pushBit (x.byte i) b else x.byte i := by
  match i with
  | 0 | 1 | 2 | 3 | 4 =>
    match j with
    | 0 | 1 | 2 | 3 | 4 => rfl

/-- Byte `i` holds the data bits `8 i` and on, as many as are shifted in, at most eight. -/
theorem byte_stageAfter (thr : Word) (counts : List Nat) (i : Fin 5) {k : Nat} (hk : k ≤ 40) :
    (stageAfter thr counts k).byte i =
      ((List.range (min (k - 8 * i.val) 8)).map fun m => frameBit thr counts (8 * i.val + m)).foldl pushBit 0#8 := by
  induction k with
  | zero =>
    rw [Nat.zero_sub, Nat.zero_min]
    match i with
    | 0 | 1 | 2 | 3 | 4 => rfl
  | succ k ih =>
    have hbyte := Sample.byte_shiftIn (stageAfter thr counts k) i ⟨k / 8, by omega⟩ (frameBit thr counts k)
    rw [stageAfter, hbyte, ih (by omega)]
    by_cases hi : k / 8 = i.val
    · have hcount : min (k - 8 * i.val) 8 = k - 8 * i.val := by omega
      have hcount' : min (k + 1 - 8 * i.val) 8 = k - 8 * i.val + 1 := by omega
      have hbit : 8 * i.val + (k - 8 * i.val) = k := by omega
      rw [if_pos (Fin.ext hi), hcount, hcount', List.range_succ, List.map_append, List.foldl_append, List.map_singleton,
        hbit]
      rfl
    · have hsame : min (k + 1 - 8 * i.val) 8 = min (k - 8 * i.val) 8 := by omega
      rw [if_neg (fun h => hi (congrArg Fin.val h)), hsame]

/-- Eight bits shifted into a byte weigh `2^7` to `2^0` (`30_encoding.md` R102). -/
theorem foldl_pushBit_range_eight (f : Nat → Bool) :
    ((List.range 8).map f).foldl pushBit 0#8 =
      BitVec.ofNat 8 (((List.range 8).map fun m => (f m).toNat * 2 ^ (7 - m)).sum) := by
  have hrange : List.range 8 = [0, 1, 2, 3, 4, 5, 6, 7] := rfl
  apply BitVec.eq_of_toNat_eq
  simp only [hrange, List.map, List.foldl, List.sum_cons, List.sum_nil, pushBit, BitVec.toNat_ofNat]
  omega

/-- The forty data bits assemble the five bytes of the frame (`30_encoding.md` R102). -/
theorem stageAfter_forty (thr : Word) (counts : List Nat) : stageAfter thr counts 40 = frameSample thr counts := by
  refine Sample.eq_of_byte_eq fun i => ?_
  have hcount : min (40 - 8 * i.val) 8 = 8 := by omega
  rw [byte_stageAfter thr counts i (Nat.le_refl 40), hcount, foldl_pushBit_range_eight]
  match i with
  | 0 | 1 | 2 | 3 | 4 => rfl

/-! ### The end of a pulse -/

/-- After a pulse that is not the last the next measurement starts (`41_refresh.md` R157). -/
theorem pulseDone_eq_next {j : Fin 82} (hj : j.val + 1 < 82) (n : Word) (s : State) :
    ∃ (b : Fin 40) (h : Word), (2 ≤ j.val + 1 → b = bitIndex (j.val + 1)) ∧
      pulseDone j n s =
        { s with
          seq := .run (.rMeas ⟨j.val + 1, hj⟩), cnt := 0#32, bitk := b, hcnt := h,
          stage := if isBitHigh j.val then s.stage.shiftIn (s.bitk.val / 8) (classify n s.bitthr) else s.stage } := by
  have hnext (t : State) : ∃ b : Fin 40, (2 ≤ j.val + 1 → b = bitIndex (j.val + 1)) ∧
      nextPulse j t = { t with seq := .run (.rMeas ⟨j.val + 1, hj⟩), cnt := 0#32, bitk := b } := by
    rw [nextPulse, dif_pos hj]
    by_cases h2 : 2 ≤ j.val + 1
    · exact ⟨_, fun _ => rfl, if_pos h2⟩
    · exact ⟨_, (absurd · h2), if_neg h2⟩
  unfold pulseDone
  split
  · obtain ⟨b, hb, e⟩ := hnext (storeBit n s)
    exact ⟨b, n, hb, e⟩
  · obtain ⟨b, hb, e⟩ := hnext s
    exact ⟨b, s.hcnt, hb, e⟩

/-- After the last pulse, a data bit's high one, the guard is left (`41_refresh.md` R164). -/
theorem pulseDone_last (n : Word) (s : State) :
    pulseDone 81 n s =
      { s with seq := .run .rGuardExit, hcnt := n,
               stage := s.stage.shiftIn (s.bitk.val / 8) (classify n s.bitthr) } := rfl

theorem getD_eq_count {counts : List Nat} {j : Nat} (hlen : j < counts.length) : counts.getD j 0 = counts[j] := by
  rw [List.getD_eq_getElem?_getD, List.getElem?_eq_getElem hlen, Option.getD_some]

/-- The count of data bit `k`'s high pulse gives that bit (`30_encoding.md` R100, R101). -/
theorem classify_eq_frameBit {counts : List Nat} {k : Nat} (thr : Word) (hk : 3 + 2 * k < counts.length)
    (hc : counts[3 + 2 * k] < 2 ^ 32) : classify (BitVec.ofNat 32 counts[3 + 2 * k]) thr = frameBit thr counts k := by
  have hcount : (BitVec.ofNat 32 counts[3 + 2 * k]).toNat = counts[3 + 2 * k] := by
    rw [BitVec.toNat_ofNat, Nat.mod_eq_of_lt hc]
  simp only [classify, frameBit, getD_eq_count hk, BitVec.lt_def, hcount]

/-- Pulse `j` adds a data bit to the buffer exactly when it is the bit's high pulse (`41_refresh.md` R157, R163). -/
theorem stageAfter_pulse {counts : List Nat} {j : Nat} {b : Fin 40} (thr : Word) (hj : j < 82)
    (hlen : j < counts.length) (hc : counts[j] < 2 ^ 32) (hb : 2 ≤ j → b = bitIndex j) :
    (if isBitHigh j then
      (stageAfter thr counts ((j - 2) / 2)).shiftIn (b.val / 8) (classify (BitVec.ofNat 32 counts[j]) thr)
      else stageAfter thr counts ((j - 2) / 2)) = stageAfter thr counts ((j + 1 - 2) / 2) := by
  by_cases hhigh : j % 2 = 1 ∧ 3 ≤ j
  · obtain ⟨k, rfl⟩ : ∃ k, j = 3 + 2 * k := ⟨(j - 3) / 2, by omega⟩
    have hbit : b.val = k := by
      rw [hb (by omega)]
      simp only [bitIndex]
      omega
    have hbefore : (3 + 2 * k - 2) / 2 = k := by omega
    have hafter : (3 + 2 * k + 1 - 2) / 2 = k + 1 := by omega
    rw [if_pos (by simp [isBitHigh, hhigh]), classify_eq_frameBit thr hlen hc, hbit, hbefore, hafter, stageAfter]
  · have hsame : (j + 1 - 2) / 2 = (j - 2) / 2 := by omega
    rw [if_neg (by simp [isBitHigh, hhigh]), hsame]

/-! ### The pulses of a frame -/

/-- The state at the first sample of a wire cycle (`41_refresh.md` R151). -/
def atFirstPulse (s : State) : State :=
  { s with clockIn := s.clockIn.tail, clockTaken := s.clockTaken + 1, pinMode := .inPullup, guardActive := true,
           cnt := 0#32, stage := Sample.zero, seq := .run (.rMeas 0),
           waitedUs := s.waitedUs + s.params.tWakeUs.toNat + s.settle.toNat }

/-- A refresh that is not skipped wakes the sensor and waits (`41_refresh.md` R151). -/
theorem sequenceN_rCheck {s : State} (hs : s.seq = .run .rCheck)
    (hgo : skips s.force s.valid s.clockWord s.ts = false) : sequenceN 6 s = atFirstPulse s := by
  rw [sequenceN, sequence_run hs, phaseStep, rCheckStep_of_not_skips hgo]
  simp [sequenceN, sequence, phaseStep, rMeasEnterStep_eq, atFirstPulse, State.goto, State.pinDriveLow,
    State.pinRelease, State.delayUs, State.params]

/-- The samples of one more pulse. -/
theorem sum_take_succ_eq {counts : List Nat} {j : Nat} (hlen : j < counts.length) :
    (counts.take (j + 1)).sum = (counts.take j).sum + counts[j] := by
  rw [← List.take_append_getElem hlen, List.sum_append_nat, List.sum_singleton]

/-- The wire cycle that began at `u`, with `j` pulses of the frame behind it. -/
def betweenPulses (u : State) (counts : List Nat) (rest : List Bool) (j : Fin 82) (b : Fin 40) (h : Word) : State :=
  { u with seq := .run (.rMeas j), cnt := 0#32, bitk := b, hcnt := h,
           stage := stageAfter u.bitthr counts ((j.val - 2) / 2),
           lineIn := pulsesFrom j.val (counts.drop j.val) ++ rest,
           lineTaken := u.lineTaken + ((counts.take j.val).sum + j.val) }

/-- The state after the last pulse of a frame, before the guard is left. -/
def afterFrame (s : State) (counts : List Nat) (rest : List Bool) : State :=
  { atFirstPulse s with
    seq := .run .rGuardExit, stage := frameSample s.bitthr counts, cnt := BitVec.ofNat 32 (counts.getD 81 0),
    hcnt := BitVec.ofNat 32 (counts.getD 81 0), bitk := 39, lineIn := rest,
    lineTaken := s.lineTaken + (counts.sum + 82) }

section
variable {s u : State} {counts : List Nat} {rest : List Bool}

/-- A pulse of the frame within the budget ends, the next ones still to come. -/
theorem sequenceN_betweenPulses {j : Fin 82} (b : Fin 40) (h : Word) (hlen : j.val < counts.length)
    (hc : counts[j.val] ≤ u.budget.toNat) :
    sequenceN (counts[j.val] + 1) (betweenPulses u counts rest j b h) =
      pulseDone j (BitVec.ofNat 32 counts[j.val])
        { betweenPulses u counts rest j b h with
          cnt := BitVec.ofNat 32 counts[j.val],
          lineIn := pulsesFrom (j.val + 1) (counts.drop (j.val + 1)) ++ rest,
          lineTaken := u.lineTaken + ((counts.take (j.val + 1)).sum + (j.val + 1)) } := by
  have hline : (betweenPulses u counts rest j b h).lineIn =
      pulse (pulseLevel j.val) counts[j.val] ++ (pulsesFrom (j.val + 1) (counts.drop (j.val + 1)) ++ rest) := by
    simp only [betweenPulses]
    rw [List.drop_eq_getElem_cons hlen, pulsesFrom, List.append_assoc]
  have htaken : (betweenPulses u counts rest j b h).lineTaken + (counts[j.val] + 1) =
      u.lineTaken + ((counts.take (j.val + 1)).sum + (j.val + 1)) := by
    simp only [betweenPulses]
    rw [sum_take_succ_eq hlen]
    omega
  rw [sequenceN_pulseDone (s := betweenPulses u counts rest j b h) rfl rfl hc hline, htaken]

/-- A pulse that is not the last leads to the next one, its data bit in the buffer where it holds one. -/
theorem sequenceN_betweenPulses_next {j : Fin 82} (hj : j.val + 1 < 82) {b : Fin 40} (h : Word)
    (hlen : j.val < counts.length) (hc : counts[j.val] ≤ u.budget.toNat) (hb : 2 ≤ j.val → b = bitIndex j.val) :
    ∃ (b' : Fin 40) (h' : Word), (2 ≤ j.val + 1 → b' = bitIndex (j.val + 1)) ∧
      sequenceN (counts[j.val] + 1) (betweenPulses u counts rest j b h) =
        betweenPulses u counts rest ⟨j.val + 1, hj⟩ b' h' := by
  have hend := sequenceN_betweenPulses (rest := rest) b h hlen hc
  generalize ht : { betweenPulses u counts rest j b h with
    cnt := BitVec.ofNat 32 counts[j.val],
    lineIn := pulsesFrom (j.val + 1) (counts.drop (j.val + 1)) ++ rest,
    lineTaken := u.lineTaken + ((counts.take (j.val + 1)).sum + (j.val + 1)) } = t at hend
  obtain ⟨b', h', hb', e⟩ := pulseDone_eq_next hj (BitVec.ofNat 32 counts[j.val]) t
  subst ht
  refine ⟨b', h', hb', hend.trans (e.trans ?_)⟩
  simp only [betweenPulses]
  rw [stageAfter_pulse _ j.isLt hlen (by omega) hb]

section
variable (hbudget : ∀ c ∈ counts, c ≤ s.budget.toNat) (hline : s.lineIn = pulsesFrom 0 counts ++ rest)
include hbudget hline

/-- The pulses of a frame, one after the other, by induction on their number. -/
theorem sequenceN_pulses {j : Nat} (hj : j < 82) (hlen : j ≤ counts.length) :
    ∃ (b : Fin 40) (h : Word), (2 ≤ j → b = bitIndex j) ∧
      sequenceN ((counts.take j).sum + j) (atFirstPulse s) =
        betweenPulses (atFirstPulse s) counts rest ⟨j, hj⟩ b h := by
  induction j with
  | zero =>
    refine ⟨s.bitk, s.hcnt, nofun, ?_⟩
    simp [sequenceN, betweenPulses, atFirstPulse, stageAfter, ← hline]
  | succ j ih =>
    obtain ⟨b, h, hb, hrun⟩ := ih (by omega) (by omega)
    have hc := hbudget _ (List.getElem_mem hlen)
    have hsteps : (counts.take (j + 1)).sum + (j + 1) = (counts.take j).sum + j + (counts[j] + 1) := by
      rw [sum_take_succ_eq hlen]
      omega
    rw [hsteps, sequenceN_add, hrun]
    exact sequenceN_betweenPulses_next (u := atFirstPulse s) (j := ⟨j, by omega⟩) hj h hlen hc hb

/-- All the pulses of a frame: the staging buffer holds its five bytes (`41_refresh.md` R157, R163). -/
theorem sequenceN_frame (hlen : counts.length = 82) :
    sequenceN (counts.sum + 82) (atFirstPulse s) = afterFrame s counts rest := by
  obtain ⟨b, h, hb, hrun⟩ := sequenceN_pulses hbudget hline (j := 81) (by decide) (by omega)
  have hlast : 81 < counts.length := by omega
  have hc := hbudget _ (List.getElem_mem hlast)
  have hall : counts.take (81 + 1) = counts := List.take_of_length_le (by omega)
  have hnone : counts.drop (81 + 1) = [] := List.drop_of_length_le (by omega)
  have hsum : counts.sum = (counts.take 81).sum + counts[81] :=
    (congrArg List.sum hall).symm.trans (sum_take_succ_eq hlast)
  have hsteps : counts.sum + 82 = (counts.take 81).sum + 81 + (counts[81] + 1) := by omega
  have hbits : (stageAfter s.bitthr counts 39).shiftIn (b.val / 8) (classify (BitVec.ofNat 32 counts[81]) s.bitthr) =
      frameSample s.bitthr counts :=
    (stageAfter_pulse s.bitthr (by decide) hlast (by omega) hb).trans (stageAfter_forty _ _)
  have hend : sequenceN (counts[81] + 1) (betweenPulses (atFirstPulse s) counts rest 81 b h) =
      { betweenPulses (atFirstPulse s) counts rest 81 b h with
        seq := .run .rGuardExit, cnt := BitVec.ofNat 32 counts[81], hcnt := BitVec.ofNat 32 counts[81],
        stage := (stageAfter s.bitthr counts 39).shiftIn (b.val / 8) (classify (BitVec.ofNat 32 counts[81]) s.bitthr),
        lineIn := pulsesFrom (81 + 1) (counts.drop (81 + 1)) ++ rest,
        lineTaken := s.lineTaken + ((counts.take (81 + 1)).sum + 82) } :=
    (sequenceN_betweenPulses (u := atFirstPulse s) (j := 81) b h hlast hc).trans (pulseDone_last _ _)
  obtain rfl : b = 39 := hb (by decide)
  rw [hbits, hall, hnone] at hend
  rw [hsteps, sequenceN_add, hrun, afterFrame, getD_eq_count hlast]
  exact hend

end

end

/-! ### The ends of a refresh -/

/-- The guard exit, the checksum test and the commit (`41_refresh.md` R164 to R166). -/
theorem sequenceN_commit {s : State} (hs : s.seq = .run .rGuardExit) (hok : s.stage.checksumOk = true) :
    sequenceN 3 s = rCommitStep s.guardExit := by
  have htest : rValidateStep (s.guardExit.goto .rValidate) = (s.guardExit.goto .rValidate).goto .rCommit := if_pos hok
  rw [sequenceN, sequence_run hs, phaseStep, sequenceN, sequence_run rfl, phaseStep, htest]
  rfl

/-- The guard exit, the checksum test and the abort path (`41_refresh.md` R165, `60_exceptions.md` R246). -/
theorem sequenceN_reject {s : State} (hs : s.seq = .run .rGuardExit) (hbad : s.stage.checksumOk = false) :
    sequenceN 3 s = abort .checksumMismatch s := by
  have htest : rValidateStep (s.guardExit.goto .rValidate) =
      (s.guardExit.goto .rValidate).goto (.rAbort .checksumMismatch) := if_neg (Bool.eq_false_iff.1 hbad)
  rw [sequenceN, sequence_run hs, phaseStep, sequenceN, sequence_run rfl, phaseStep, htest]
  rfl

/-- A timeout takes the abort path (`41_refresh.md` R158, `60_exceptions.md` R246). -/
theorem sequenceN_abort {s : State} {cause : AbortCause} (hs : s.seq = .run (.rAbort cause)) :
    sequenceN 1 s = abort cause s := by
  rw [sequenceN, sequence_run hs]
  rfl

/-- A refresh over a whole frame, left to itself up to the guard exit and three steps on. -/
theorem run_frame {s : State} {counts : List Nat} {rest : List Bool} (h : s.agenda = []) (hs : s.seq = .run .rCheck)
    (hgo : skips s.force s.valid s.clockWord s.ts = false) (hlen : counts.length = 82)
    (hbudget : ∀ c ∈ counts, c ≤ s.budget.toNat) (hline : s.lineIn = pulsesFrom 0 counts ++ rest) :
    core.run (counts.sum + 82 + 9) s = .next (sequenceN 3 (afterFrame s counts rest)) := by
  have hsteps : counts.sum + 82 + 9 = 6 + (counts.sum + 82 + 3) := by omega
  rw [run_of_no_agenda _ h, hsteps, sequenceN_add, sequenceN_rCheck hs hgo, sequenceN_add,
    sequenceN_frame hbudget hline hlen]

/-- Settles O32: the frame's bytes pass the checksum test. -/
theorem refreshCommitsTheFrame : Obligations.RefreshCommitsTheFrame := by
  intro s counts rest h hs hgo hlen hbudget hline hok
  rw [run_frame h hs hgo hlen hbudget hline, sequenceN_commit (s := afterFrame s counts rest) rfl hok,
    rCommitStep_eq]
  rfl

/-- Settles O33: the frame's bytes fail the checksum test. -/
theorem refreshRejectsABadChecksum : Obligations.RefreshRejectsABadChecksum := by
  intro s counts rest h hs hgo hlen hbudget hline hbad
  rw [run_frame h hs hgo hlen hbudget hline, sequenceN_reject (s := afterFrame s counts rest) rfl hbad]
  rfl

/-- Settles O34: the pulses within the budget, then the one that times out, then the abort path. -/
theorem refreshTimesOutAtAnyPulse : Obligations.RefreshTimesOutAtAnyPulse := by
  intro s counts rest h hs hgo hlen hbudget hline
  obtain ⟨b, c, -, hrun⟩ := sequenceN_pulses hbudget hline hlen (Nat.le_refl _)
  rw [List.take_length] at hrun
  have hstuck := sequenceN_timeout (s := betweenPulses (atFirstPulse s) counts
    (List.replicate (s.budget.toNat + 1) (pulseLevel counts.length) ++ rest) ⟨counts.length, hlen⟩ b c) (rest := rest)
    rfl rfl (by simp [betweenPulses, atFirstPulse, pulsesFrom])
  have hsteps : counts.sum + counts.length + (s.budget.toNat + 1) + 7 =
      6 + (counts.sum + counts.length + (s.budget.toNat + 1 + 1)) := by omega
  refine ⟨stageAfter s.bitthr counts ((counts.length - 2) / 2), b, c, ?_⟩
  rw [run_of_no_agenda _ h, hsteps, sequenceN_add, sequenceN_rCheck hs hgo, sequenceN_add, hrun, sequenceN_add]
  refine congrArg Host.Outcome.next ((congrArg (sequenceN 1) hstuck).trans ((sequenceN_abort rfl).trans ?_))
  simp [abort, betweenPulses, atFirstPulse, AbortCause.code, Nat.add_assoc]

end Sys2Proof.Machine
end

section
/-! PROOFS. The end of every accessor (`41_refresh.md` R168, R169): how its refresh can end, what each end leaves as it
was, and the decode step. -/

namespace Sys2Proof.Machine

/-! ### A measurement of unknown pulses -/

/-- `s` with what the samples of a wire cycle write taken from `t`. -/
def measuredAs (s t : State) : State :=
  { s with cnt := t.cnt, bitk := t.bitk, hcnt := t.hcnt, stage := t.stage, lineIn := t.lineIn, lineTaken := t.lineTaken,
           seq := t.seq }

theorem pulseDone_measuredAs (j : Fin 82) (n : Word) (s : State) :
    pulseDone j n s = measuredAs s (pulseDone j n s) := by
  unfold pulseDone
  split
  · obtain ⟨b, c, q, e⟩ := nextPulse_eq (storeBit n s) j
    rw [e]
    rfl
  · obtain ⟨b, c, q, e⟩ := nextPulse_eq s j
    rw [e]
    rfl

/-- One sample writes the measurement's own state and the line alone (`41_refresh.md` R157, R160). -/
theorem rMeasStep_measuredAs (j : Fin 82) (s : State) : rMeasStep j s = measuredAs s (rMeasStep j s) := by
  rcases rMeasStep_cases s j with ⟨-, e⟩ | ⟨-, -, e⟩ | ⟨-, -, e⟩ <;> rw [e]
  · exact pulseDone_measuredAs j s.cnt s.lineNext
  · rfl
  · rfl

theorem rMeasStep_lineTaken (j : Fin 82) (s : State) : (rMeasStep j s).lineTaken = s.lineTaken + 1 := by
  rcases rMeasStep_cases s j with ⟨-, e⟩ | ⟨-, -, e⟩ | ⟨-, -, e⟩ <;> simp [e]

/-- The measurements of a wire cycle are over (`41_refresh.md` R158, R164). -/
def MeasuringEnded (s : State) : Prop := s.seq = .run .rGuardExit ∨ s.seq = .run (.rAbort .timeout)

theorem rMeasStep_seq {j : Fin 82} {s : State} (hs : s.seq = .run (.rMeas j)) :
    (∃ j', (rMeasStep j s).seq = .run (.rMeas j')) ∨ MeasuringEnded (rMeasStep j s) := by
  rcases rMeasStep_cases s j with ⟨-, e⟩ | ⟨-, -, e⟩ | ⟨-, -, e⟩ <;> rw [e]
  · rcases pulseDone_seq s.lineNext j s.cnt with ⟨hj, hseq, -⟩ | ⟨-, hseq⟩
    · exact .inl ⟨_, hseq⟩
    · exact .inr (.inl hseq)
  · exact .inr (.inr rfl)
  · exact .inl ⟨j, hs⟩

theorem samplesLeft_rMeasStep_lt {j : Fin 82} {s : State} (hs : s.seq = .run (.rMeas j)) :
    samplesLeft (rMeasStep j s) < samplesLeft s := by
  have htaken := rMeasStep_lineTaken j s
  rcases rMeasStep_spends hs with ⟨hsame, -, -⟩ | ⟨-, hless, -⟩
  · omega
  · exact hless

/-- Whatever the line answers, the measurements end within the samples that are left (`41_refresh.md` R168). -/
theorem sequenceN_measuring {j : Fin 82} {s : State} (hs : s.seq = .run (.rMeas j)) :
    ∃ m ≤ samplesLeft s, (sequenceN m s).lineTaken = s.lineTaken + m ∧
      sequenceN m s = measuredAs s (sequenceN m s) ∧ MeasuringEnded (sequenceN m s) := by
  induction hn : samplesLeft s using Nat.strongRecOn generalizing s j with
  | ind n ih =>
    subst hn
    have hless := samplesLeft_rMeasStep_lt hs
    have htaken := rMeasStep_lineTaken j s
    have hframe := rMeasStep_measuredAs j s
    have hstep : sequence s = rMeasStep j s := sequence_run hs
    rcases rMeasStep_seq hs with ⟨j', hs'⟩ | hend
    · obtain ⟨m, hm, htaken', hframe', hend⟩ := ih _ hless hs' rfl
      refine ⟨m + 1, by omega, ?_⟩
      rw [sequenceN, hstep]
      refine ⟨by omega, hframe'.trans ?_, hend⟩
      rw [hframe]
      rfl
    · refine ⟨1, by omega, ?_⟩
      rw [sequenceN, hstep]
      exact ⟨htaken, hframe, hend⟩

/-! ### The ends of a refresh -/

/-- How the refresh that starts at `a` can end, at the decode step: skipped, or after the measurements with the commit
or an abort (`41_refresh.md` R169). -/
inductive Refreshed (a : State) : State → Prop
  | skipped :
      Refreshed a
        { a with clockIn := a.clockIn.tail, clockTaken := a.clockTaken + 1, outcome := .skipped, err := .none,
                 seq := .run .rDecode }
  | committed {v : State} (htaken : v.lineTaken ≤ a.lineTaken + 82 * (a.budget.toNat + 1))
      (hok : v.stage.checksumOk = true) : Refreshed a (rCommitStep (measuredAs (atFirstPulse a) v).guardExit)
  | failed {v : State} (htaken : v.lineTaken ≤ a.lineTaken + 82 * (a.budget.toNat + 1)) (cause : AbortCause) :
      Refreshed a (abort cause (measuredAs (atFirstPulse a) v))

theorem samplesLeft_atFirstPulse (a : State) : samplesLeft (atFirstPulse a) = 82 * (a.budget.toNat + 1) := by
  have hleft := samplesLeft_rMeas (s := atFirstPulse a) (j := 0) rfl
  have hcnt : (atFirstPulse a).cnt.toNat = 0 := rfl
  have hbudget : (atFirstPulse a).budget = a.budget := rfl
  rw [hleft, hcnt, hbudget, Fin.val_zero]
  omega

/-- From the end of its measurements a refresh takes at most three steps to the decode step. -/
theorem MeasuringEnded.refreshed {a v : State} (hend : MeasuringEnded v)
    (htaken : v.lineTaken ≤ a.lineTaken + 82 * (a.budget.toNat + 1)) (hframe : v = measuredAs (atFirstPulse a) v) :
    ∃ k ≤ 3, Refreshed a (sequenceN k v) := by
  have hfailed (cause : AbortCause) := Refreshed.failed htaken cause
  rw [← hframe] at hfailed
  rcases hend with hs | hs
  · cases hsum : v.stage.checksumOk with
    | false => exact ⟨3, by decide, sequenceN_reject hs hsum ▸ hfailed .checksumMismatch⟩
    | true =>
      have hcommitted := Refreshed.committed htaken hsum
      rw [← hframe] at hcommitted
      exact ⟨3, by decide, sequenceN_commit hs hsum ▸ hcommitted⟩
  · exact ⟨1, by decide, sequenceN_abort hs ▸ hfailed .timeout⟩

/-- Every refresh ends, whatever the line and the clock answer (`41_refresh.md` R168). -/
theorem sequenceN_refreshed {a : State} (hs : a.seq = .run .rCheck) :
    ∃ m ≤ 82 * (a.budget.toNat + 1) + 9, Refreshed a (sequenceN m a) := by
  cases hskip : skips a.force a.valid a.clockWord a.ts with
  | true =>
    refine ⟨1, by omega, ?_⟩
    rw [sequenceN, sequence_run hs, phaseStep, rCheckStep_of_skips hskip]
    exact .skipped
  | false =>
    obtain ⟨m, hm, htaken, hframe, hend⟩ := sequenceN_measuring (s := atFirstPulse a) rfl
    rw [samplesLeft_atFirstPulse] at hm
    have hstart : (atFirstPulse a).lineTaken = a.lineTaken := rfl
    obtain ⟨k, hk, href⟩ := hend.refreshed (a := a) (by omega) hframe
    refine ⟨6 + (m + k), by omega, ?_⟩
    rwa [sequenceN_add, sequenceN_rCheck hs hskip, sequenceN_add]

section
variable {a u : State} (h : Refreshed a u)
include h

theorem Refreshed.seq_eq : u.seq = .run .rDecode := by cases h <;> rfl

/-- The most samples and clock reads of a refresh (`41_refresh.md` R168). -/
theorem Refreshed.bounds :
    u.lineTaken ≤ a.lineTaken + 82 * (a.budget.toNat + 1) ∧ u.clockTaken ≤ a.clockTaken + 2 := by
  cases h with
  | skipped => exact ⟨Nat.le_add_right _ _, Nat.le_succ _⟩
  | committed htaken => exact ⟨htaken, Nat.le_refl _⟩
  | failed htaken => exact ⟨htaken, Nat.le_succ _⟩

/-- What OUTCOME and ERR say of a refresh (`41_refresh.md` R169, `10_state.md` R42). -/
theorem Refreshed.outcome_cases :
    (u.outcome = .skipped ∨ u.outcome = .fresh ∨ u.outcome = .failed) ∧
    (u.outcome = .fresh → u.valid = true ∧ u.err = .none ∧ u.cache.checksumOk = true) ∧
    (u.outcome = .skipped → u.err = .none ∧ u.lineTaken = a.lineTaken) ∧
    (u.outcome = .failed → u.err = .timeout ∨ u.err = .checksum) := by
  cases h with
  | skipped => exact ⟨.inl rfl, nofun, fun _ => ⟨rfl, rfl⟩, nofun⟩
  | @committed v _ hok =>
    have hcache : (rCommitStep (measuredAs (atFirstPulse a) v).guardExit).cache = v.stage := cache_of_raw rfl rfl
    exact ⟨.inr (.inl rfl), fun _ => ⟨rfl, rfl, hcache ▸ hok⟩, nofun, nofun⟩
  | failed _ cause =>
    refine ⟨.inr (.inr rfl), nofun, nofun, fun _ => ?_⟩
    cases cause
    · exact .inl rfl
    · exact .inr rfl

/-- Only a fresh refresh writes the ReadCache (`41_refresh.md` R169). -/
theorem Refreshed.keeps_cache (hne : u.outcome ≠ .fresh) :
    u.raw0 = a.raw0 ∧ u.raw1 = a.raw1 ∧ u.ts = a.ts ∧ u.valid = a.valid := by
  cases h with
  | skipped => exact ⟨rfl, rfl, rfl, rfl⟩
  | committed => exact absurd rfl hne
  | failed => exact ⟨rfl, rfl, rfl, rfl⟩

/-- A wire cycle leaves the line released and the guard inactive (`41_refresh.md` R167, `43_guard.md` R233). -/
theorem Refreshed.ports :
    u.pinMode = (if u.outcome = .skipped then a.pinMode else .inPullup) ∧
    (a.guardActive = false → u.guardActive = false) := by
  cases h with
  | skipped => exact ⟨rfl, id⟩
  | committed => exact ⟨rfl, fun _ => rfl⟩
  | failed => exact ⟨rfl, fun _ => rfl⟩

/-- No refresh writes the latches, a host-written register, the calibration or INIT (`10_state.md` R42 to R52). -/
theorem Refreshed.keeps_registers :
    (u.op = a.op ∧ u.fahr = a.fahr) ∧ u.arg = a.arg ∧ u.configType = a.configType ∧ u.budget = a.budget ∧
    u.bitthr = a.bitthr ∧ u.settle = a.settle ∧ u.init = a.init ∧ u.caldef = a.caldef := by
  cases h with
  | skipped => exact ⟨⟨rfl, rfl⟩, rfl, rfl, rfl, rfl, rfl, rfl, rfl⟩
  | committed =>
    rw [rCommitStep_eq]
    exact ⟨⟨rfl, rfl⟩, rfl, rfl, rfl, rfl, rfl, rfl, rfl⟩
  | failed => exact ⟨⟨rfl, rfl⟩, rfl, rfl, rfl, rfl, rfl, rfl, rfl⟩

end

/-! ### The accessor -/

/-- The decode step is one `finishAccessor`, NODATA the complement of VALID (`42_accessors.md` R193, R204). -/
theorem rDecodeStep_eq (s : State) :
    rDecodeStep s = finishAccessor (if s.valid = false then Config.nan32 else accessorValue s) (!s.valid) s := by
  cases hvalid : s.valid <;> simp [rDecodeStep, hvalid]

/-- The value an accessor reads from a valid cache (`42_accessors.md` R190, R195). -/
def valueOf (i : Instr) (force fahr : Bool) (x : Sample) : Word :=
  if i = .readHum force then humOf x else if fahr then ctof (tempCOf x) else tempCOf x

/-- An accessor after BEGIN starts at R_CHECK, with the latches from which the decode step takes the value. -/
theorem exec_accessor_started {s : State} {i : Instr} {force fahr : Bool} (hinit : s.init = true)
    (hi : i = .readHum force ∨ i = .readTemp force fahr) :
    ∃ (opc : BitVec 4) (fahr' : Bool),
      exec i s = .next { s with op := opc, force := force, fahr := fahr', busy := true, seq := .run .rCheck } ∧
      ∀ u : State, u.op = opc ∧ u.fahr = fahr' → accessorValue u = valueOf i force fahr u.cache := by
  obtain ⟨hhum, htemp⟩ := accessorIsAcceptedAndStarts s force fahr hinit
  rcases hi with rfl | rfl
  · refine ⟨0x3#4, s.fahr, hhum, fun u hu => ?_⟩
    rw [accessorValue, hu.1, if_neg (by decide), valueOf, if_pos rfl]
  · refine ⟨0x4#4, fahr, htemp, fun u hu => ?_⟩
    have hother : Instr.readTemp force fahr ≠ .readHum force := nofun
    rw [accessorValue, if_pos hu.1, hu.2, tempOf, valueOf, if_neg hother]

/-- Settles O47: the refresh ends in one of three ways, and the decode step changes none of what each leaves. -/
theorem everyAccessorEndsWithItsResult : Obligations.EveryAccessorEndsWithItsResult := by
  intro s i force fahr hagenda hinit hi
  obtain ⟨opc, fahr', hexec, hvalue⟩ := exec_accessor_started hinit hi
  obtain ⟨m, hm, href⟩ := sequenceN_refreshed
    (a := { s with op := opc, force := force, fahr := fahr', busy := true, seq := .run .rCheck }) rfl
  generalize hu : sequenceN m _ = u at href
  obtain ⟨hsamples, hclock⟩ := href.bounds
  obtain ⟨houtcome, hfresh, hskipped, hfailed⟩ := href.outcome_cases
  obtain ⟨hpin, hguard⟩ := href.ports
  obtain ⟨hlatches, hregisters⟩ := href.keeps_registers
  have hrun : sequenceN (m + 1)
      { s with op := opc, force := force, fahr := fahr', busy := true, seq := .run .rCheck } = rDecodeStep u := by
    rw [sequenceN_add, hu, sequenceN, sequence_run href.seq_eq]
    rfl
  refine ⟨_, rDecodeStep u, m + 1, hexec, (run_of_no_agenda (m + 1) ?_).trans (congrArg Host.Outcome.next hrun),
    Nat.succ_le_succ hm, ?_⟩
  · exact hagenda
  rw [rDecodeStep_eq, hvalue u hlatches]
  exact ⟨rfl, rfl, hsamples, hclock, rfl, rfl, houtcome, hfresh, hskipped, hfailed, href.keeps_cache, hpin, hguard,
    hregisters⟩

end Sys2Proof.Machine
end

section
/-! PROOFS. The accessor family (`42_accessors.md`): the atomic commands, the decode step, the bytes of the cache as
binary32 values, and the conversion. -/

namespace Sys2Proof.Machine

/-! ### Binary32: what rounding, integers and negation give -/

/-- Dividing a magnitude that binary32 holds by a positive integer does not round past it. -/
theorem Representable.roundUnits_le {n den : Nat} (hn : Representable n) (hden : 0 < den) : roundUnits n den ≤ n := by
  obtain ⟨-, hnearest, -⟩ := roundingIsNearestTiesToEven n den hden
  have herror := hnearest n hn
  have hself : n ≤ n * den := Nat.le_mul_of_pos_right n hden
  refine Nat.not_lt.1 fun hlt => ?_
  have hscaled : n * den < roundUnits n den * den := Nat.mul_lt_mul_of_pos_right hlt hden
  omega

/-- A magnitude that binary32 holds is not rounded. -/
theorem Representable.roundUnits_one {n : Nat} (hn : Representable n) : roundUnits n 1 = n := by
  obtain ⟨-, hnearest, -⟩ := roundingIsNearestTiesToEven n 1 Nat.one_pos
  have herror := hnearest n hn
  omega

/-- Short of an overflow, `rne` gives a finite pattern of its sign and of the rounded magnitude (R14). -/
theorem rne_holds (sign : Bool) {num den : Nat} (hlt : roundUnits num den < f32Overflow) :
    f32Units (rne sign num den) = roundUnits num den ∧ f32Sign (rne sign num den) = sign ∧
      f32Expo (rne sign num den) ≠ 0xFF :=
  f32Encode_holds sign (representable_roundUnits num den) hlt

theorem isNaN_of_finite {v : Word} (h : f32Expo v ≠ 0xFF) : isNaN v = false := by
  rw [isNaN, beq_false_of_ne h, Bool.false_and]

theorem isInf_of_finite {v : Word} (h : f32Expo v ≠ 0xFF) : isInf v = false := by
  rw [isInf, beq_false_of_ne h, Bool.false_and]

theorem isNaN_of_isInf {v : Word} (h : isInf v = true) : isNaN v = false := by
  obtain ⟨-, hfrac⟩ := Bool.and_eq_true_iff.1 h
  rw [isNaN, bne, hfrac, Bool.not_true, Bool.and_false]

/-- `rne` gives an infinity exactly where the rounded magnitude overflows (R14). -/
theorem isInf_rne_eq_false_iff {sign : Bool} {num den : Nat} :
    isInf (rne sign num den) = false ↔ roundUnits num den < f32Overflow := by
  constructor
  · intro hfin
    refine Nat.not_le.1 fun hover => ?_
    rw [rne, f32Encode_of_overflow sign hover] at hfin
    exact Bool.eq_false_iff.1 hfin (by cases sign <;> decide)
  · intro hlt
    obtain ⟨-, -, hfin⟩ := rne_holds sign hlt
    exact isInf_of_finite hfin

/-- An integer below 2^24 is held exactly (R14 `f32(n)`). -/
theorem f32OfNat_holds {n : Nat} (hn : n < 2 ^ 24) :
    f32Units (f32OfNat n) = n * 2 ^ 149 ∧ f32Sign (f32OfNat n) = false ∧ f32Expo (f32OfNat n) ≠ 0xFF := by
  have hexact : roundUnits (n * 2 ^ 149) 1 = n * 2 ^ 149 := Representable.roundUnits_one ⟨n, 149, hn, rfl⟩
  have hlt : n * 2 ^ 149 < f32Overflow := Nat.mul_lt_mul_of_pos_right (by omega) (Nat.two_pow_pos 149)
  have hholds := rne_holds false (hexact.symm ▸ hlt)
  rwa [hexact] at hholds

@[simp] theorem f32Sign_f32Neg (v : Word) : f32Sign (f32Neg v) = !f32Sign v := by
  simp [f32Sign, f32Neg]

@[simp] theorem f32Expo_f32Neg (v : Word) : f32Expo (f32Neg v) = f32Expo v := by
  simp [f32Expo, f32Neg, BitVec.extractLsb'_xor]

@[simp] theorem f32Frac_f32Neg (v : Word) : f32Frac (f32Neg v) = f32Frac v := by
  simp [f32Frac, f32Neg, BitVec.extractLsb'_xor]

@[simp] theorem f32Units_f32Neg (v : Word) : f32Units (f32Neg v) = f32Units v := by
  simp [f32Units]

/-! ### The bytes of the cache as values -/

/-- Settles O37: a byte is an integer below 2^24. -/
theorem humidityIsTheExactByte : Obligations.HumidityIsTheExactByte := by
  refine ⟨fun x => ?_, fun _ _ _ _ _ => rfl⟩
  obtain ⟨hunits, hsign, hfin⟩ := f32OfNat_holds (n := x.b0.toNat) (by omega)
  exact ⟨hsign, hfin, hunits⟩

/-- The sign and the magnitude of TEMPC's byte (`42_accessors.md` R196). -/
theorem tempCOf_holds (x : Sample) :
    f32Units (tempCOf x) = x.b2.toNat % 128 * 2 ^ 149 ∧ f32Sign (tempCOf x) = x.b2.getLsbD 7 ∧
      f32Expo (tempCOf x) ≠ 0xFF := by
  have hmag : (x.b2.extractLsb' 0 7).toNat = x.b2.toNat % 128 := by
    rw [BitVec.extractLsb'_toNat, Nat.shiftRight_zero]
  obtain ⟨hunits, hsign, hfin⟩ := f32OfNat_holds (n := x.b2.toNat % 128) (by omega)
  rw [tempCOf, hmag]
  split
  next hneg => exact ⟨by simpa using hunits, by simp [hsign, hneg], by simpa using hfin⟩
  next hpos => exact ⟨hunits, hsign.trans (Bool.eq_false_iff.2 hpos).symm, hfin⟩

/-- Settles O38: bits 6:0 are an integer below 2^24, and bit 7 negates. -/
theorem temperatureIsSignAndMagnitude : Obligations.TemperatureIsSignAndMagnitude := by
  refine ⟨fun x => ?_, fun x h => ?_, fun _ _ _ _ _ => rfl⟩
  · obtain ⟨hunits, hsign, hfin⟩ := tempCOf_holds x
    exact ⟨hsign, hfin, hunits⟩
  · have hzero : tempCOf x = 0x80000000#32 := by rw [tempCOf, h]; decide
    exact ⟨hzero, by rw [hzero]; decide⟩

/-! ### The conversion -/

theorem f32Scale_of_isInf {c : Word} (h : isInf c = true) (num den : Nat) : f32Scale c num den = c := if_pos h

theorem f32Scale_of_not_isInf {c : Word} (h : isInf c = false) (num den : Nat) :
    f32Scale c num den = rne (f32Sign c) (f32Units c * num) den := if_neg (Bool.eq_false_iff.1 h)

theorem f32AddNat_of_isInf {c : Word} (h : isInf c = true) (n : Nat) (zeroSign : Bool) :
    f32AddNat c n zeroSign = c := if_pos h

theorem f32AddNat_of_zero {c : Word} {n : Nat} (h : isInf c = false)
    (hsum : f32Int c + ((n * 2 ^ 149 : Nat) : Int) = 0) (zeroSign : Bool) :
    f32AddNat c n zeroSign = f32Pack zeroSign 0 0 :=
  (if_neg (Bool.eq_false_iff.1 h)).trans (if_pos hsum)

theorem f32AddNat_of_ne_zero {c : Word} {n : Nat} (h : isInf c = false)
    (hsum : f32Int c + ((n * 2 ^ 149 : Nat) : Int) ≠ 0) (zeroSign : Bool) :
    f32AddNat c n zeroSign =
      rne (decide (f32Int c + ((n * 2 ^ 149 : Nat) : Int) < 0)) (f32Int c + ((n * 2 ^ 149 : Nat) : Int)).natAbs 1 :=
  (if_neg (Bool.eq_false_iff.1 h)).trans (if_neg hsum)

theorem ctof_of_isNaN {c : Word} (h : isNaN c = true) : ctof c = Config.nan32 := if_pos h

theorem ctof_of_not_isNaN {c : Word} (h : isNaN c = false) :
    ctof c = f32AddNat (f32Scale (f32Scale c 9 1) 1 5) 32 (Config.freeZeroSign c) :=
  if_neg (Bool.eq_false_iff.1 h)

theorem ctof_of_isInf {c : Word} (h : isInf c = true) : ctof c = c := by
  rw [ctof_of_not_isNaN (isNaN_of_isInf h), f32Scale_of_isInf h, f32Scale_of_isInf h, f32AddNat_of_isInf h]

/-- The first step of a finite operand (`42_accessors.md` R202). -/
theorem ctof_of_finite {c : Word} (h : f32Expo c ≠ 0xFF) :
    ctof c = f32AddNat (f32Scale (rne (f32Sign c) (f32Units c * 9) 1) 1 5) 32 (Config.freeZeroSign c) := by
  rw [ctof_of_not_isNaN (isNaN_of_finite h), f32Scale_of_not_isInf (isInf_of_finite h)]

/-- A fifth of a rounded value does not overflow. -/
theorem isInf_fifth_of_rne {t : Word} {sign : Bool} {num den : Nat} (ht : t = rne sign num den)
    (hfin : isInf t = false) (sign' : Bool) : isInf (rne sign' (f32Units t) 5) = false := by
  subst ht
  have hlt := isInf_rne_eq_false_iff.1 hfin
  obtain ⟨hunits, -, -⟩ := rne_holds sign hlt
  rw [isInf_rne_eq_false_iff, hunits]
  exact Nat.lt_of_le_of_lt ((representable_roundUnits num den).roundUnits_le (by decide)) hlt

/-- Settles O41: a NaN and an infinity, an overflow of the first step, and otherwise a second step that stays finite,
so that the third adds two finite values. -/
theorem ctofIsThreeRoundings : Obligations.CtofIsThreeRoundings := by
  refine ⟨fun _ => ctof_of_isNaN, fun _ => ctof_of_isInf, fun c hfin hover => ?_, fun c t1 t2 hfin h1 hfin1 h2 => ?_⟩
  · rw [ctof_of_finite hfin, f32Scale_of_isInf hover, f32AddNat_of_isInf hover]
  · have hfin2 : isInf t2 = false := h2 ▸ isInf_fifth_of_rne h1 hfin1 _
    have hctof : ctof c = f32AddNat t2 32 (Config.freeZeroSign c) := by
      rw [ctof_of_finite hfin, ← h1, f32Scale_of_not_isInf hfin1, Nat.mul_one, ← h2]
    rw [hctof]
    refine ⟨hfin2, fun hzero => ?_, fun hne => f32AddNat_of_ne_zero hfin2 hne _⟩
    rw [f32AddNat_of_zero hfin2 hzero]
    cases Config.freeZeroSign c
    · exact .inl rfl
    · exact .inr rfl

/-- Settles O42: the three operands are finite and no sum is zero, so each conversion computes. -/
theorem conversionFixedPoints : Obligations.ConversionFixedPoints :=
  ⟨by decide, by decide, by decide⟩

/-! ### The atomic commands -/

/-- A command of opcode 6 or above is a reserved one (`42_accessors.md` R201). -/
theorem exec_of_reserved {i : Instr} (h : 6 ≤ (opcode i).toNat) (s : State) :
    exec i s = .next { s with err := .badCmd } := by
  cases i with
  | nop | beginCmd | beginArg | readHum | readTemp | convertCToF => simp [opcode] at h
  | _ => rfl

theorem opcode_of_mem_reservedCommands : ∀ i ∈ reservedCommands, 6 ≤ (opcode i).toNat := by decide

/-- Settles O18: the opcode alone makes a word's command a reserved one. -/
theorem reservedOpcodesOnlySetBadCmd : Obligations.ReservedOpcodesOnlySetBadCmd :=
  ⟨fun i hi => exec_of_reserved (opcode_of_mem_reservedCommands i hi),
    fun _ s h => exec_of_reserved (opcode_decodeWord _ ▸ h) s⟩

theorem decodeWord_of_opField_zero {w : Word} (h : opField w = 0x0#4) : decodeWord w = .nop := by
  rw [decodeWord, h]
  rfl

/-- Settles O17: acceptance writes the agenda and the latches, which no register shows. -/
theorem nopChangesNoState : Obligations.NopChangesNoState := by
  refine ⟨fun _ => rfl, fun s w rest hop hagenda hbusy => ?_⟩
  have hstep := stepRunsTheDecodedCommand s w rest hagenda hbusy
  rw [decodeWord_of_opField_zero hop] at hstep
  exact ⟨_, hstep, fun _ => rfl⟩

/-- Settles O19: the command has no condition. -/
theorem convertWritesResultAndErr : Obligations.ConvertWritesResultAndErr :=
  fun _ => rfl

/-- Settles O20: INIT is 0, so each accessor gives `NOT_INIT_RESULT()`. -/
theorem accessorBeforeBeginIsNotInit : Obligations.AccessorBeforeBeginIsNotInit :=
  fun _ _ _ hinit => ⟨if_neg (Bool.eq_false_iff.1 hinit), if_neg (Bool.eq_false_iff.1 hinit)⟩

/-! ### The decode step -/

theorem accessorValue_of_readHum {s : State} (h : s.op = 0x3#4) : accessorValue s = humOf s.cache :=
  if_neg (by rw [h]; decide)

theorem accessorValue_of_readTemp {s : State} (h : s.op = 0x4#4) : accessorValue s = tempOf s.fahr s.cache :=
  if_pos h

/-- At R_DECODE a step is one `finishAccessor`, whichever value the accessor reads from a valid cache. -/
theorem step_rDecode {s : State} {v : Word} (turn : sequencerMoves s) (hs : s.seq = .run .rDecode)
    (hv : accessorValue s = v) :
    step s = .next
      (finishAccessor (if s.valid then v else Config.nan32) (!s.valid) (s.withAgenda s.agenda.tail)) := by
  have hresult : (if s.valid = false then Config.nan32 else accessorValue s) = if s.valid then v else Config.nan32 := by
    rw [hv]
    cases s.valid <;> rfl
  rw [step_of_phase turn hs, phaseStep, rDecodeStep_eq, ← hresult]
  rfl

/-- Settles O36: the latched opcode says which value the step takes from a valid cache. -/
theorem decodeStepWritesTheResult : Obligations.DecodeStepWritesTheResult :=
  fun _ turn hs =>
    ⟨fun hop => step_rDecode turn hs (accessorValue_of_readHum hop),
      fun hop => step_rDecode turn hs (accessorValue_of_readTemp hop)⟩

/-- The cache of the worked example (`42_accessors.md` R205). -/
def workedExample : Sample := { b0 := 0x32#8, b1 := 0x00#8, b2 := 0x1B#8, b3 := 0x00#8, b4 := 0x4D#8 }

theorem humOf_workedExample : humOf workedExample = 0x42480000#32 := by decide

theorem tempCOf_workedExample : tempCOf workedExample = 0x41D80000#32 := by decide

/-- Settles O43: the two words of the cache hold the example's bytes. -/
theorem workedExampleDecodes : Obligations.WorkedExampleDecodes := by
  intro s turn hs hvalid h0 h1
  have hcache : s.cache = workedExample := cache_of_raw h0 h1
  constructor
  · intro hop
    have hvalue : accessorValue s = 0x42480000#32 := by
      rw [accessorValue_of_readHum hop, hcache, humOf_workedExample]
    exact ⟨_, step_rDecode turn hs hvalue, if_pos hvalid⟩
  · intro hop hfahr
    have hvalue : accessorValue s = 0x41D80000#32 := by
      rw [accessorValue_of_readTemp hop, tempOf, hfahr, if_neg Bool.false_ne_true, hcache, tempCOf_workedExample]
    exact ⟨_, step_rDecode turn hs hvalue, if_pos hvalid⟩

end Sys2Proof.Machine
end

section
/-! PROOFS. The guard family (`43_guard.md`): the output `irq_suppress` (R230), and GUARD_EN, which no move of the block
reads (R236): every move commutes with setting it. -/

namespace Sys2Proof.Machine

/-- Settles O52: the output is the conjunction of the two. -/
theorem irqSuppressFollowsTheGuard : Obligations.IrqSuppressFollowsTheGuard := by
  intro s
  refine ⟨fun henabled => ?_, fun hdisabled => ?_⟩
  · rw [State.irqSuppress, henabled, Bool.and_true]
  · rw [State.irqSuppress, hdisabled, Bool.and_false]

section
variable (b : Bool) (s : State)

/-! ### The sequencer -/

theorem nextPulse_withGuardEn (j : Fin 82) : nextPulse j (withGuardEn b s) = withGuardEn b (nextPulse j s) := by
  unfold nextPulse
  rw [apply_dite (withGuardEn b)]
  simp only [apply_ite (withGuardEn b)]
  rfl

theorem pulseDone_withGuardEn (j : Fin 82) (n : Word) :
    pulseDone j n (withGuardEn b s) = withGuardEn b (pulseDone j n s) := by
  unfold pulseDone
  split
  · exact nextPulse_withGuardEn b (storeBit n s) j
  · exact nextPulse_withGuardEn b s j

/-- The bound of the calibration is a parameter, but not GUARD_EN. -/
theorem bRefStep_withGuardEn : bRefStep (withGuardEn b s) = withGuardEn b (bRefStep s) := by
  rcases bRefStep_cases s with ⟨hhigh, e⟩ | ⟨hlow, hfull, e⟩ | ⟨hlow, hbelow, e⟩ <;> rw [e]
  · exact bRefStep_of_high (s := withGuardEn b s) hhigh
  · exact bRefStep_of_low_at_bound (s := withGuardEn b s) hlow hfull
  · exact bRefStep_of_low_below (s := withGuardEn b s) hlow (BitVec.not_le.1 hbelow)

theorem rMeasStep_withGuardEn (j : Fin 82) : rMeasStep j (withGuardEn b s) = withGuardEn b (rMeasStep j s) := by
  rcases rMeasStep_cases s j with ⟨hother, e⟩ | ⟨hlevel, hfull, e⟩ | ⟨hlevel, hbelow, e⟩ <;> rw [e]
  · rw [← pulseDone_withGuardEn]
    exact rMeasStep_of_ne (s := withGuardEn b s) hother
  · exact rMeasStep_at_bound (s := withGuardEn b s) hlevel hfull
  · exact rMeasStep_below (s := withGuardEn b s) hlevel (BitVec.not_le.1 hbelow)

/-- The calibration reads five parameters, none of them GUARD_EN. -/
theorem calibrate_withGuardEn (r : Count) : calibrate r (withGuardEn b s) = withGuardEn b (calibrate r s) := by
  cases r with
  | timeout => rfl
  | value n =>
    unfold calibrate
    rw [apply_ite (withGuardEn b)]
    rfl

theorem bEndStep_withGuardEn (r : Count) : bEndStep r (withGuardEn b s) = withGuardEn b (bEndStep r s) :=
  congrArg (fun t => (initCache t).complete) (calibrate_withGuardEn b s.guardExit r)

/-! A step that branches does so on a condition that GUARD_EN is no part of. -/

theorem rCheckStep_withGuardEn : rCheckStep (withGuardEn b s) = withGuardEn b (rCheckStep s) := by
  unfold rCheckStep
  rw [apply_ite (withGuardEn b)]
  rfl

theorem rValidateStep_withGuardEn : rValidateStep (withGuardEn b s) = withGuardEn b (rValidateStep s) := by
  unfold rValidateStep
  rw [apply_ite (withGuardEn b)]
  rfl

theorem rDecodeStep_withGuardEn : rDecodeStep (withGuardEn b s) = withGuardEn b (rDecodeStep s) := by
  unfold rDecodeStep
  rw [apply_ite (withGuardEn b)]
  rfl

/-- Every micro-operation runs alike with either value. -/
theorem phaseStep_withGuardEn (p : Phase) : phaseStep p (withGuardEn b s) = withGuardEn b (phaseStep p s) := by
  cases p with
  | bRef => exact bRefStep_withGuardEn b s
  | bEnd r => exact bEndStep_withGuardEn b s r
  | rMeas j => exact rMeasStep_withGuardEn b s j
  | rCheck => exact rCheckStep_withGuardEn b s
  | rValidate => exact rValidateStep_withGuardEn b s
  | rDecode => exact rDecodeStep_withGuardEn b s
  | _ => rfl

theorem sequence_withGuardEn : sequence (withGuardEn b s) = withGuardEn b (sequence s) := by
  cases hs : s.seq with
  | idle => rw [sequence_idle hs, sequence_idle (s := withGuardEn b s) hs]
  | run p => rw [sequence_run hs, sequence_run (s := withGuardEn b s) hs, phaseStep_withGuardEn]

/-! ### Commands and host accesses -/

theorem initSeq_withGuardEn (opc : BitVec 4) (settle : Half) :
    initSeq opc settle (withGuardEn b s) = withGuardEn b (initSeq opc settle s) := by
  unfold initSeq
  rw [apply_ite (withGuardEn b)]
  rfl

/-- An atomic command and an acceptance step run alike with either value. -/
theorem exec_withGuardEn (i : Instr) : exec i (withGuardEn b s) = mapNext (withGuardEn b) (exec i s) := by
  cases i with
  | beginCmd | beginArg => exact congrArg Host.Outcome.next (initSeq_withGuardEn b s _ _)
  | readHum force =>
    rw [exec, exec, execReadHum, execReadHum, apply_ite (mapNext (withGuardEn b))]
    rfl
  | readTemp force fahr =>
    rw [exec, exec, execReadTemp, execReadTemp, apply_ite (mapNext (withGuardEn b))]
    rfl
  | _ => rfl

theorem acceptCommand_withGuardEn (w : Word) :
    acceptCommand w (withGuardEn b s) = mapNext (withGuardEn b) (acceptCommand w s) := by
  rw [acceptCommand, acceptCommand, apply_ite (mapNext (withGuardEn b)), ← exec_withGuardEn]
  rfl

theorem writeConfig_withGuardEn (w : Word) : writeConfig w (withGuardEn b s) = withGuardEn b (writeConfig w s) := by
  unfold writeConfig
  rw [apply_ite (withGuardEn b)]
  rfl

theorem writeReg_withGuardEn (off : Nat) (w : Word) :
    writeReg off w (withGuardEn b s) = mapNext (withGuardEn b) (writeReg off w s) := by
  unfold writeReg
  split
  · exact acceptCommand_withGuardEn b s w
  · exact congrArg Host.Outcome.next (writeConfig_withGuardEn b s w)
  · rfl
  · rfl

/-- GUARD_EN is in no register (`10_state.md` R40). -/
theorem readReg_withGuardEn (off : Nat) : readReg (withGuardEn b s) off = readReg s off := rfl

theorem hostPoll_withGuardEn : hostPoll (withGuardEn b s) = withGuardEn b (hostPoll s) := by
  unfold hostPoll
  rw [apply_ite (withGuardEn b)]
  rfl

/-- The class of an access, which decides whether it stops, is no matter of the state (`20_memory.md` R80 to R82). -/
theorem hostMove_withGuardEn (op : HostOp) :
    hostMove op (withGuardEn b s) = mapNext (withGuardEn b) (hostMove op s) := by
  cases op with
  | rd off width =>
    simp only [hostMove, hostRead, readReg_withGuardEn]
    cases classifyAccess off width <;> rfl
  | wr off width w =>
    simp only [hostMove, hostWrite]
    cases classifyAccess off width with
    | register k => exact writeReg_withGuardEn b s k w
    | undefinedAccess | outside => rfl
  | waitIdle => exact congrArg Host.Outcome.next (hostPoll_withGuardEn b s)

theorem perform_withGuardEn (e : Event) : perform e (withGuardEn b s) = mapNext (withGuardEn b) (perform e s) := by
  cases e with
  | host op => exact hostMove_withGuardEn b s op
  | seqMove => exact congrArg Host.Outcome.next (sequence_withGuardEn b s)
  | rst => rfl

end

/-- Settles O53: the agenda names the same move, and every move commutes with setting GUARD_EN. -/
theorem guardEnableChangesNoStep : Obligations.GuardEnableChangesNoStep := by
  intro s b
  cases ha : s.agenda with
  | nil =>
    rw [step_nil ha, step_nil (s := withGuardEn b s) ha, sequence_withGuardEn]
    rfl
  | cons e rest =>
    rw [step_cons ha, step_cons (s := withGuardEn b s) ha]
    exact perform_withGuardEn b (s.withAgenda rest) e

end Sys2Proof.Machine
end

section
/-! PROOFS. The exception family (`60_exceptions.md`): the abort path (R246), and several blocks side by side (R260,
R262). -/

namespace Sys2Proof.Machine

/-! ### The abort path -/

/-- The step whose turn is the abort path's is `abort` and nothing else (`60_exceptions.md` R246). -/
theorem step_rAbort {s : State} {cause : AbortCause} (turn : sequencerMoves s) (hs : s.seq = .run (.rAbort cause)) :
    step s = .next (abort cause (s.withAgenda s.agenda.tail)) := by
  rw [step_of_phase turn hs, phaseStep]

/-- Settles O35: the two causes differ in the code alone. -/
theorem abortPathTakesOneStep : Obligations.AbortPathTakesOneStep :=
  fun _ turn => ⟨step_rAbort turn, step_rAbort turn⟩

/-! ### Several blocks -/

section
variable {bs : Platform} {k : Nat} {s : State}

/-- A block that is not there makes no step. -/
theorem stepBlock_of_none (h : bs[k]? = none) : bs.stepBlock k = .next bs := by
  rw [Platform.stepBlock, h]

/-- A block that moves leaves its next state in its own place. -/
theorem stepBlock_of_next {t : State} (h : bs[k]? = some s) (ht : step s = .next t) :
    bs.stepBlock k = .next (bs.set k t) := by
  simp only [Platform.stepBlock, h, ht]

theorem stepBlock_of_fault {f : Fault} (h : bs[k]? = some s) (hf : step s = .fault f) :
    bs.stepBlock k = .fault f := by
  simp only [Platform.stepBlock, h, hf]

theorem stepBlock_of_refused {r : Refusal} (h : bs[k]? = some s) (hr : step s = .refused r) :
    bs.stepBlock k = .refused r := by
  simp only [Platform.stepBlock, h, hr]

/-- What a block finds in its own place after its move. -/
theorem getElem?_set_block (h : bs[k]? = some s) (t : State) : (bs.set k t)[k]? = some t :=
  List.getElem?_set_self (List.getElem?_eq_some_iff.1 h).1

/-- A platform moves only by its block's own move, which writes that block's place. -/
theorem stepBlock_eq_next {cs : Platform} (h : bs[k]? = some s) (hcs : bs.stepBlock k = .next cs) :
    ∃ t, step s = .next t ∧ cs = bs.set k t := by
  cases hstep : step s with
  | next t =>
    rw [stepBlock_of_next h hstep] at hcs
    cases hcs
    exact ⟨t, rfl, rfl⟩
  | fault f => rw [stepBlock_of_fault h hstep] at hcs; cases hcs
  | refused r => rw [stepBlock_of_refused h hstep] at hcs; cases hcs

end

/-- Settles O54: a block's move writes its own place in the list, and a stop is its own. -/
theorem blocksShareNoState : Obligations.BlocksShareNoState := by
  refine ⟨fun bs cs k hcs => ?_, fun bs k s h => ⟨fun t ht => ?_, fun _ => stepBlock_of_fault h,
    fun _ => stepBlock_of_refused h⟩⟩
  · cases h : bs[k]? with
    | none =>
      rw [stepBlock_of_none h] at hcs
      cases hcs
      exact ⟨rfl, fun _ _ => rfl, fun _ => nofun, fun _ => rfl⟩
    | some s =>
      obtain ⟨t, ht, rfl⟩ := stepBlock_eq_next h hcs
      refine ⟨List.length_set, fun m hm => List.getElem?_set_ne hm.symm, ?_, nofun⟩
      rintro _ ⟨⟩
      exact ⟨t, ht, getElem?_set_block h t⟩
  · exact ⟨bs.set k t, stepBlock_of_next h ht, getElem?_set_block h t⟩

/-- Settles O55: the host's request is `List.any` over the blocks. -/
theorem suppressionIsTheOrOfTheBlocks : Obligations.SuppressionIsTheOrOfTheBlocks :=
  fun _ => List.any_eq_true

end Sys2Proof.Machine
end

section
/-! PROOFS. The reset and hazards family (`70_reset_and_hazards.md`): what reset leaves (R282), an idle block's turn
(R280), and a command word that comes while the block is busy (R290). -/

namespace Sys2Proof.Machine

/-! ### Reset -/

theorem statusWord_reset : statusWord State.reset = 0x00000000#32 := by decide

/-- Every field that STATUS reports is one that a reset writes. -/
theorem statusWord_resetBlock (s : State) : statusWord (resetBlock s) = statusWord State.reset := rfl

/-- The guard is off, whatever `GUARD_EN` is. -/
theorem irqSuppress_resetBlock (s : State) : (resetBlock s).irqSuppress = false := Bool.false_and _

/-- Settles O16: the reset state, which is `resetBlock` of itself, and a reset of any state report the same. -/
theorem resetReportsZeroStatus : Obligations.ResetReportsZeroStatus :=
  ⟨statusWord_reset, irqSuppress_resetBlock .reset,
    fun s => ⟨(statusWord_resetBlock s).trans statusWord_reset, irqSuppress_resetBlock s⟩⟩

/-! ### An idle block -/

/-- Settles O14: `sequence` is the identity at an idle block, whichever way the turn comes to it. -/
theorem idleBlockWaits : Obligations.IdleBlockWaits := by
  intro s turn hidle
  rw [step_of_sequencerMoves turn, sequence_idle (by simpa using hidle)]
  rfl

/-! ### A command while the block is busy -/

/-- A busy block does not accept a command word. -/
theorem acceptCommand_of_busy {s : State} (w : Word) (h : s.busy = true) : acceptCommand w s = .next s := if_pos h

/-- Settles O5: the write reaches offset 0, where acceptance tests BUSY before it latches anything. -/
theorem commandWhileBusyIsLost : Obligations.CommandWhileBusyIsLost := by
  intro s w rest h hbusy
  calc step s
    _ = acceptCommand w (s.withAgenda rest) := step_register_write (k := 0) (by decide) h
    _ = .next (s.withAgenda rest) := acceptCommand_of_busy w hbusy

end Sys2Proof.Machine
end
